-- ==== Sys2Proof/Word.lean ====
section
/-!
DEFINITION. The word types and the largest time value.
-/

namespace Sys2Proof

/-- One byte of a record in system memory. -/
abbrev Byte := BitVec 8

/-- A time value is an unsigned 64-bit count of ticks (section 1.6), held as a `Nat`. Every sum of time values in the
model is either saturated at `maxTime`, the largest time value, at which the timebase is held (R105), or tested
against it, as the rule that forms the sum says. -/
abbrev maxTime : Nat := 2 ^ 64 - 1

/-- The number of system addresses: "System addresses are 64 bits wide" (R171). -/
abbrev addressSpace : Nat := 2 ^ 64

end Sys2Proof
end

