-- ==== Sys2Proof/Syntax.lean ====
section
/-!
DEFINITION. The commands of the ES-2440: one constructor of `Instr` for each row of spec/opcode_table.json,
with the operands the spec gives it. Fields of a record are kept raw, in the width section 12.3 gives them, so
that every value software can write, valid or not, is an operand.
-/

namespace Sys2Proof

/-- The common header of a command record (section 12.3): flags, command id and the time field. The kind is the
constructor. -/
structure Header where
  /-- bit 0 COMPLETE ON EXECUTION, bit 1 REFUSE LATE, bit 2 RELATIVE -/
  flags : BitVec 8
  id    : BitVec 16
  /-- base time of the scheduling kinds, from-time of CANCEL CHANNEL -/
  time  : BitVec 64
  deriving DecidableEq, Repr

/-- A step entry, inline or in a step list (section 12.3). -/
structure StepEntry where
  offset  : BitVec 32
  tag     : BitVec 16
  channel : BitVec 8
  action  : BitVec 8
  deriving DecidableEq, Repr

/-- SCHEDULE: step count and the record's five entries. -/
structure ScheduleBody where
  stepCount : BitVec 8
  entries   : List StepEntry
  deriving DecidableEq, Repr

/-- SCHEDULE REPEATING. -/
structure RepeatingBody where
  channel        : BitVec 8
  levelA         : BitVec 8
  levelB         : BitVec 8
  tag            : BitVec 16
  cycleCount     : BitVec 16
  offset         : BitVec 32
  intervalAfterA : BitVec 32
  intervalAfterB : BitVec 32
  deriving DecidableEq, Repr

/-- SCHEDULE LIST. -/
structure ListBody where
  stepCount   : BitVec 16
  listAddress : BitVec 64
  deriving DecidableEq, Repr

/-- CONFIGURE CHANNEL. -/
structure ChannelBody where
  channel   : BitVec 8
  safeLevel : BitVec 8
  idleLevel : BitVec 8
  deriving DecidableEq, Repr

/-- CONFIGURE PAIR: bit 0 of `enable` is the enable setting. -/
structure PairBody where
  pair     : BitVec 8
  enable   : BitVec 8
  polarity : BitVec 8
  deadTime : BitVec 16
  deriving DecidableEq, Repr

/-- CONFIGURE DOMAIN. -/
structure DomainBody where
  domain      : BitVec 8
  disposition : BitVec 8
  members     : BitVec 32
  sources     : BitVec 32
  deriving DecidableEq, Repr

/-- One entry of LOAD SAFE SEQUENCE. -/
structure SequenceField where
  offset  : BitVec 24
  channel : BitVec 8
  deriving DecidableEq, Repr

/-- LOAD SAFE SEQUENCE: entry count and the record's eight entries. -/
structure SequenceBody where
  domain     : BitVec 8
  entryCount : BitVec 8
  entries    : List SequenceField
  deriving DecidableEq, Repr

/-- CONFIGURE FAULT INPUT: `flags` bit 0 enable, bit 1 report. -/
structure InputBody where
  input          : BitVec 8
  flags          : BitVec 8
  polarity       : BitVec 8
  mode           : BitVec 8
  sampleInterval : BitVec 16
  filterCount    : BitVec 8
  deriving DecidableEq, Repr

/-- CONFIGURE SUPERVISOR: bit 0 of `enable` is the enable setting. -/
structure SupervisorBody where
  enable           : BitVec 8
  failCount        : BitVec 8
  failAction       : BitVec 8
  windowLength     : BitVec 16
  lowerLimit       : BitVec 32
  upperLimit       : BitVec 32
  referenceTimeout : BitVec 32
  deriving DecidableEq, Repr

/-- A command record's kind and body (section 8.7): the twenty kinds, and a kind byte that is none of them. -/
inductive Command where
  | schedule (b : ScheduleBody)
  | scheduleRepeating (b : RepeatingBody)
  | scheduleList (b : ListBody)
  | cancelTag (tag : BitVec 16)
  | cancelChannel (channel : BitVec 8)
  | configureChannel (b : ChannelBody)
  | configurePair (b : PairBody)
  | queryChannel (channel : BitVec 8)
  | configureDomain (b : DomainBody)
  | loadSafeSequence (b : SequenceBody)
  | armDomain (domain : BitVec 8)
  | disarmDomain (domain : BitVec 8)
  | tripDomain (domain : BitVec 8)
  | releaseDomain (domain : BitVec 8)
  | queryDomain (domain : BitVec 8)
  | configureFaultInput (b : InputBody)
  | clearFaultLatch (input : BitVec 8)
  | configureSupervisor (b : SupervisorBody)
  | restorePrimaryClock
  | readTime
  | unknownKind (kind : BitVec 8)
  deriving DecidableEq, Repr

/-- The four owners of master accesses (chapter Memory Access Monitor). -/
inductive AccessOwner where
  | commandUnit
  | stepScheduler
  | postingUnit
  | engineControl
  deriving DecidableEq, Repr

/-- A due-time event of a channel (R20). Whether a trip falls at the same time value as the channel's step and is yet to be taken
is not read from the state: it is the moment's own (R78; log 21). -/
structure DueEvent where
  channel   : Fin 32
  tripWaits : Bool
  deriving DecidableEq, Repr

/-- The commands. The twenty fetched commands are the arrival of their record (log 7); the other rows are the
register writes, pin events, due moments and bus answers of the table. -/
inductive Instr where
  -- fetched commands
  | schedule (h : Header) (b : ScheduleBody)
  | scheduleRepeating (h : Header) (b : RepeatingBody)
  | scheduleList (h : Header) (b : ListBody)
  | cancelTag (h : Header) (tag : BitVec 16)
  | cancelChannel (h : Header) (channel : BitVec 8)
  | configureChannel (h : Header) (b : ChannelBody)
  | configurePair (h : Header) (b : PairBody)
  | queryChannel (h : Header) (channel : BitVec 8)
  | configureDomain (h : Header) (b : DomainBody)
  | loadSafeSequence (h : Header) (b : SequenceBody)
  | armDomain (h : Header) (domain : BitVec 8)
  | disarmDomain (h : Header) (domain : BitVec 8)
  | tripDomain (h : Header) (domain : BitVec 8)
  | releaseDomain (h : Header) (domain : BitVec 8)
  | queryDomain (h : Header) (domain : BitVec 8)
  | configureFaultInput (h : Header) (b : InputBody)
  | clearFaultLatch (h : Header) (input : BitVec 8)
  | configureSupervisor (h : Header) (b : SupervisorBody)
  | restorePrimaryClock (h : Header)
  | readTime (h : Header)
  -- register writes
  | start
  | halt
  | softReset
  | unknownControlOperation (operation : BitVec 4)
  | postTail (target : BitVec 4) (index : BitVec 16)
  | resetQueue (target : BitVec 4)
  | consume (target : BitVec 4) (index : BitVec 16)
  | unrecognisedNotifyOperation (operation : BitVec 4) (target : BitVec 4) (index : BitVec 16)
  | intCauseWrite (value : BitVec 32)
  | intEnableWrite (value : BitVec 32)
  | registerWrite (offset : BitVec 8) (value : BitVec 32)
  -- RESETn
  | hardReset
  | resetnNegated
  -- moments at which the part acts
  | dueTimeEvent (due : DueEvent)
  | deadTimeExpiry (pair : Fin 16)
  | safeSequenceEntryDue (domain : Fin 8) (entry : Nat)
  | sampleEvent (input : Fin 16) (pinHigh : Bool)
  | primaryStop
  | windowEnd
  | referenceTimeout
  | holdoffExpiry (queue : Fin 4)
  | fetchGrant
  -- answers of the system bus
  | recordArrives (data : List Byte)
  | listArrives (data : List Byte)
  | completionWriteAnswered
  | noticeWriteAnswered
  | configurationBlockArrives (data : List Byte)
  | accessTimeout (owner : AccessOwner)
  | busErrorResponse (owner : AccessOwner)
  | lateAnswer
  -- clock edges
  | timebaseTick
  | refEdge
  | tclkEdge
  | primaryIndicationAbsent
  deriving DecidableEq, Repr

end Sys2Proof
end

