-- ==== Sys2Proof/Decode.lean ====
section
/-!
DEFINITION. The decoder the host asks: no row of spec/opcode_table.json gives bits, so no word spells a command.
(The registers' and the records' own layouts, section 12, are decoded in Machine/Operands.lean.)
-/

namespace Sys2Proof

/-- The command that a word of `nbits` bits spells by the table's bits: none, for the table gives no row any bits. -/
def decodeTableWord (_nbits _w : Nat) : Option Instr := none

end Sys2Proof
end

