-- ==== Sys2Proof/Config.lean ====
section
/-!
DEFINITION. What the ES-2440 fixes once for all, and the free values the spec leaves open.
-/

namespace Sys2Proof.Config

/-- The step store holds 1024 slots (R1). -/
def storeSlots : Nat := 1024

/-- The pending notice list holds at most 16 notices (R161). -/
def pendingLimit : Nat := 16

/-- The lost count saturates here (R160). -/
def lostLimit : Nat := 65535

/-- A window's tick count is held here (R113). -/
def countLimit : Nat := 2 ^ 32 - 1

/-- The number of backup-oscillator periods without a TCLK edge at which the primary present indication
becomes absent (R108). -/
def detectorLimit : Nat := 32

/-- The fixed timeout of the Configuration Block read, in ticks (R174). -/
def blockTimeout : Nat := 65535 * 16

/-- The magic value of the Configuration Block (section 12.2). -/
def blockMagic : Nat := 0x51432440

/-- The version of the Configuration Block this part accepts (section 12.2). -/
def blockVersion : Nat := 1

/-- IDENT: part code 0x2440, revision 0x0001 (section 12.1). -/
def ident : BitVec 32 := 0x24400001

/-- FREE VALUE (log 6): the bit that QUERY CHANNEL reports as the force reason of a channel that is SCHEDULED,
which R48 calls meaningless. Nothing constrains it; it is applied to a counter of the state. -/
opaque freeBit : Nat → Bool

/-- FREE VALUE (log 5): the order in which the offers of one event reach the domains, where they are more than one; R97,
R112 and R189 leave it open. Nothing constrains it; it is applied to a counter of the state. -/
opaque offerOrder : Nat → List (Fin 8)

end Sys2Proof.Config
end

