-- ==== Sys2Proof/Machine/State.lean ====
section
/-!
DEFINITION. The state of the ES-2440 as plain data: one record per functional block (section 1.2), the part that
holds them, and the state with its queue of waiting commands. The reset values are those after a hard reset.
-/

namespace Sys2Proof.Machine

/-! ## Output Stage -/

/-- The level of a channel (section 1.6). -/
inductive Level where
  | high | low | float
  deriving DecidableEq, Repr

/-- The polarity of a pair (R32) or of a fault input (R92). -/
inductive Polarity where
  | activeHigh | activeLow
  deriving DecidableEq, Repr

/-- Who forced a channel (R29). -/
inductive ForceReason where
  | domain | engine
  deriving DecidableEq, Repr

/-- The non-scheduled kinds of level request (R30). A DOMAIN SAFE request names its domain and, unless it was raised
at the trip itself, the number of its safe-sequence entry (R38). -/
inductive WaitKind where
  | domainSafe (domain : Fin 8) (entry : Option Nat)
  | engineForce
  | idle
  | reset
  deriving DecidableEq, Repr

/-- A waiting request (R38). -/
structure Waiting where
  level : Level
  kind  : WaitKind
  deriving DecidableEq, Repr

/-- A channel record (R29). The control state is SCHEDULED when `force` is `none` and FORCED, for the reason held,
otherwise. -/
structure Channel where
  level   : Level
  safe    : Level
  force   : Option ForceReason
  waiting : Option Waiting
  deriving DecidableEq, Repr

/-- A pair record (R32). -/
structure Pair where
  enabled     : Bool
  polarity    : Polarity
  deadTime    : Nat
  deadTimeEnd : Nat
  deriving DecidableEq, Repr

/-- The Output Stage. Channels 2k and 2k+1 form pair k. -/
structure Output where
  channels : Vector Channel 32
  pairs    : Vector Pair 16
  deriving DecidableEq, Repr

/-! ## Step Scheduler -/

/-- The action of a non-repeating step (R2). -/
inductive Action where
  | driveHigh | driveLow | float | mark
  deriving DecidableEq, Repr

/-- Which level a repeating step applies next (R3). -/
inductive NextLevel where
  | a | b
  deriving DecidableEq, Repr

/-- The repeat part of a step record (R3). -/
structure Repeat where
  levelA : Level
  levelB : Level
  afterA : Nat
  afterB : Nat
  cycles : Nat
  next   : NextLevel
  deriving DecidableEq, Repr

/-- What a step does when it is taken: a single action, or the repeat part, whose next level gives the action (R2). -/
inductive StepBody where
  | single (action : Action)
  | repeating (r : Repeat)
  deriving DecidableEq, Repr

/-- A step record (R2). Its channel is the timeline it stands in. -/
structure Step where
  effective : Nat
  body      : StepBody
  tag       : BitVec 16
  origin    : Fin 8
  link      : Option (Fin 64)
  late      : Bool
  deriving DecidableEq, Repr

/-- The 32 channel timelines (R5). -/
abbrev Timelines := Vector (List Step) 32

/-! ## Completion Tracker -/

/-- The five drop causes (R27); a set of them is the completion's bit field (section 12.4). -/
inductive DropCause where
  | cancelled | discarded | expired | blocked | halted
  deriving DecidableEq, Repr

/-- How a step left the store (R23). -/
inductive StepOutcome where
  | executed
  | dropped (cause : DropCause)
  deriving DecidableEq, Repr

/-- An Outstanding Command Table entry in use (R51). -/
structure TableEntry where
  queue     : Fin 8
  id        : BitVec 16
  cq        : Fin 4
  total     : Nat
  executed  : Nat
  late      : Bool
  drops     : BitVec 5
  remaining : Nat
  lastTime  : Nat
  deriving DecidableEq, Repr

/-! ## Domain Unit -/

/-- The states of a shutdown domain (R65). -/
inductive DomainState where
  | disarmed | armed | tripping | tripped
  deriving DecidableEq, Repr

/-- What a trip does with the steps stored on member channels (R65). -/
inductive Disposition where
  | discard | hold
  deriving DecidableEq, Repr

/-- How far one part of the drive to safe levels has gone (R65). -/
inductive Progress where
  | pending | waitingOnPartner | done
  deriving DecidableEq, Repr

/-- One progress part: a safe-sequence entry, by its number, or an immediate member (R65). -/
structure ProgressPart where
  channel : Fin 32
  entry   : Option Nat
  state   : Progress
  deriving DecidableEq, Repr

/-- One safe-sequence entry (R65). -/
structure SequenceEntry where
  channel : Fin 32
  offset  : Nat
  deriving DecidableEq, Repr

/-- A domain record (R65). The member set has bit c for channel c, the source set bits 0-15 for the fault inputs,
16 CLOCK, 17 CONTENTION, the latched cause set bit n for cause n (section 12.4). `contentionWaits` says that a CONTENTION pulse
is on its way to the ARMED domain, behind a trip of the same time value (R78; log 21). -/
structure Domain where
  state       : DomainState
  members     : BitVec 32
  sources     : BitVec 18
  disposition : Disposition
  sequence    : List SequenceEntry
  causes      : BitVec 21
  tripTime    : Nat
  progress    : List ProgressPart
  contentionWaits : Bool
  deriving DecidableEq, Repr

/-- A trip cause (R69). -/
inductive Cause where
  | input (n : Fin 16)
  | clock
  | contention
  | software
  | halt
  | engineFault
  deriving DecidableEq, Repr

/-! ## Fault Input Block -/

/-- The mode of a fault input (R92). -/
inductive InputMode where
  | level | latched
  deriving DecidableEq, Repr

/-- A fault input record (R92), and the ticks counted since its last sample (R93). -/
structure FaultInput where
  enabled     : Bool
  polarity    : Polarity
  mode        : InputMode
  interval    : Nat
  filterCount : Nat
  report      : Bool
  filtered    : Bool
  run         : Nat
  latch       : Bool
  spacing     : Nat
  deriving DecidableEq, Repr

/-! ## Timebase and Clock Supervisor -/

/-- The active source of the timebase (R105). -/
inductive Source where
  | primary | backup
  deriving DecidableEq, Repr

/-- The supervisor's states (R111). -/
inductive SupervisorState where
  | disabled | settling | measuring | failed
  deriving DecidableEq, Repr

/-- The supervisor's fail action (R111). -/
inductive FailAction where
  | flagOnly | switchToBackup
  deriving DecidableEq, Repr

/-- The supervisor's verdicts, PRIMARY STOPPED among them (R111). -/
inductive Verdict where
  | inRange | high | low | noReference | primaryStopped
  deriving DecidableEq, Repr

/-- The window under way (R111, R113): open, with REF edges seen since the opening edge and ticks counted, or waiting
for an opening edge; and the reference timer. -/
structure SupervisorWindow where
  isOpen   : Bool
  edges    : Nat
  ticks    : Nat
  refTimer : Nat
  deriving DecidableEq, Repr

/-- The supervisor record (R111). `failAction` is `none` and the numbers are 0 while the supervisor has not been
configured. -/
structure Supervisor where
  state            : SupervisorState
  windowLength     : Nat
  lowerLimit       : Nat
  upperLimit       : Nat
  failCount        : Nat
  referenceTimeout : Nat
  failAction       : Option FailAction
  bad              : Nat
  verdict          : Option Verdict
  lastCount        : Nat
  window           : Option SupervisorWindow
  deriving DecidableEq, Repr

/-- The timebase (R105), the primary-stop detector (R108) and the supervisor. -/
structure Clock where
  time           : Nat
  source         : Source
  primaryPresent : Bool
  detectorCount  : Nat
  supervisor     : Supervisor
  deriving DecidableEq, Repr

/-! ## Completions and notices -/

/-- The statuses of a completion (R155). -/
inductive Status where
  | ok | late | partially | abandoned
  | badKind | badField | noAuthority | noSpace | noTracking | tooLate | forced | wrongState | sourceActive | halted
  | accessFault
  deriving DecidableEq, Repr

/-- A completion's contents, as handed over (R155). The phase is set when its write is issued. -/
structure Completion where
  queue  : Fin 8
  id     : BitVec 16
  status : Status
  aux    : Nat
  drops  : BitVec 5
  value  : Nat
  deriving DecidableEq, Repr

/-- Why the active source changed (R107). -/
inductive SourceReason where
  | primaryStopped | supervisorFailed | restored
  deriving DecidableEq, Repr

/-- Why a submission queue entered ERROR (R137, R145). -/
inductive QueueErrorReason where
  | fetchViolation | fetchTimeout | fetchBusError | badTail
  deriving DecidableEq, Repr

/-- The nine notice kinds with their detail fields (section 9.7). -/
inductive NoticeBody where
  | domainTripped (domain : Fin 8) (cause : Cause) (disposition : Disposition) (partsNotDone : Nat)
      (members : BitVec 32) (discarded held : Nat)
  | domainCauseAdded (domain : Fin 8) (cause : Cause) (state : DomainState) (causes : BitVec 21)
  | domainSafe (domain : Fin 8) (causes : BitVec 21) (tripTime : Nat)
  | domainReleased (domain : Fin 8) (causes : BitVec 21) (kept carried expired : Nat)
  | pairContention (pair : Fin 16) (lowerRefused upperRefused : Bool) (lowerRequested upperRequested : Option Level)
      (lowerLevel upperLevel : Option Level) (dropped : Nat)
  | faultInputActive (input : Fin 16) (mode : InputMode) (filtered : Bool) (domains : BitVec 8)
  | clockFailed (verdict : Option Verdict) (counter : Nat) (source : Source) (lastCount : Nat)
  | clockSourceChanged (source : Source) (reason : SourceReason) (state : SupervisorState)
  | queueError (queue : Fin 8) (reason : QueueErrorReason) (head tail index : Nat) (parkedCompleted : Bool)
  deriving DecidableEq, Repr

/-- A notice: the time of the event reported and its detail. Sequence number, lost count and phase are set when its
write is issued (R162, R164). -/
structure Notice where
  time : Nat
  body : NoticeBody
  deriving DecidableEq, Repr

/-! ## Command Unit -/

/-- The states of a submission queue (R125). -/
inductive QueueState where
  | disabled | active | holding | error
  deriving DecidableEq, Repr

/-- The parked command of a HOLDING queue with its last refusal (R143). -/
structure Held where
  header  : Header
  command : Command
  status  : Status
  aux     : Nat
  deriving DecidableEq, Repr

/-- A submission queue context (R125). -/
structure QueueContext where
  enabled      : Bool
  base         : Nat
  size         : Nat
  cq           : Fin 4
  urgent       : Bool
  mask         : BitVec 32
  authority    : BitVec 4
  quota        : Nat
  holdWhenFull : Bool
  head         : Nat
  tail         : Nat
  state        : QueueState
  hold         : Option Held
  deriving DecidableEq, Repr

/-- The command path (R134): free, occupied by a record fetch of a queue, or by the step list read of a SCHEDULE LIST
of a queue. The last argument says whether the read is marked discarded (R138, R142). -/
inductive CommandPath where
  | free
  | fetch (queue : Fin 8) (discarded : Bool)
  | list (queue : Fin 8) (header : Header) (discarded : Bool)
  deriving DecidableEq, Repr

/-- The Command Unit: the eight contexts, the command path and the arbiter's two round-robin pointers (R133). -/
structure CommandUnit where
  queues        : Vector QueueContext 8
  path          : CommandPath
  urgentPointer : Fin 8
  normalPointer : Fin 8
  deriving DecidableEq, Repr

/-! ## Memory Access Monitor -/

/-- A window of the window table (R171). -/
structure MemoryWindow where
  base       : Nat
  length     : Nat
  allowRead  : Bool
  allowWrite : Bool
  deriving DecidableEq, Repr

/-- What an access is for: its owner and kind (section 10.2). -/
inductive AccessPurpose where
  | recordFetch
  | listRead
  | completionWrite (cq : Fin 4)
  | noticeWrite
  | blockRead
  deriving DecidableEq, Repr

/-- An access in flight (section 10.3): what it is for, address, length, timer and the limit in force when it was
issued (R175); and the bytes of a write (R198), none for a read. -/
structure Access where
  purpose : AccessPurpose
  address : Nat
  length  : Nat
  timer   : Nat
  limit   : Nat
  data    : List Byte
  deriving DecidableEq, Repr

/-- The monitor: the window table, the access timeout in units of 16 ticks, and the accesses in flight, one place for
the command path, one for the Posting Unit and one for Engine Control. -/
structure Monitor where
  windows : Vector MemoryWindow 8
  timeout : Nat
  command : Option Access
  posting : Option Access
  block   : Option Access
  deriving DecidableEq, Repr

/-! ## Posting Unit -/

/-- A completion queue context (R149). -/
structure CompletionContext where
  enabled     : Bool
  base        : Nat
  size        : Nat
  threshold   : Nat
  holdoff     : Nat
  tail        : Nat
  head        : Nat
  phase       : Bool
  reserved    : Nat
  unsignalled : Nat
  timer       : Option Nat
  deriving DecidableEq, Repr

/-- The notice ring context (R160). -/
structure NoticeRing where
  enabled  : Bool
  base     : Nat
  size     : Nat
  tail     : Nat
  head     : Nat
  phase    : Bool
  sequence : Nat
  pending  : List Notice
  lost     : Nat
  deriving DecidableEq, Repr

/-- One item of the write list (R153). -/
inductive Item where
  | completion (cq : Fin 4) (c : Completion)
  | notice (n : Notice)
  deriving DecidableEq, Repr

/-- The six posting-fault reasons (R167). -/
inductive FatalReason where
  | completionWriteViolation | completionWriteTimeout | completionWriteBusError
  | noticeWriteViolation | noticeWriteTimeout | noticeWriteBusError
  deriving DecidableEq, Repr

/-- The ring whose write faulted (R180). -/
inductive FatalRing where
  | cq (n : Fin 4)
  | noticeRing
  deriving DecidableEq, Repr

/-- The Posting Unit. The item whose write is in flight stays at the front of the write list until the write ends.
`taken` is the sequence number and lost count that the notice write in flight took at issue (R162), `restore` the same
pair kept across a load (R169), `abandoned` says that the write in flight was abandoned by a START (R169), `fault` is a
posting fault on its way to Engine Control within the event under way (R167; log 4). Causes and enables stand at the
bits of INT CAUSE (section 12.1). -/
structure Posting where
  cqs       : Vector CompletionContext 4
  ring      : NoticeRing
  writeList : List Item
  abandoned : Bool
  taken     : Option (Nat × Nat)
  restore   : Option (Nat × Nat)
  fault     : Option (FatalReason × FatalRing)
  causes    : BitVec 7
  enables   : BitVec 7
  deriving DecidableEq, Repr

/-! ## Engine Control -/

/-- The engine states (R180). -/
inductive EngineState where
  | off | loading | running | halting | halted | fatal
  deriving DecidableEq, Repr

/-- The outcome of the most recent failed load (R180). -/
inductive LoadFault where
  | none | blockTimeout | blockBusError | badMagic | badVersion | badRing | badBinding | badWindow
  deriving DecidableEq, Repr

/-- The operation of the most recent refused CONTROL write (R180). -/
inductive LastRefused where
  | none | start | halt | unknown
  deriving DecidableEq, Repr

/-- The engine record (R180). -/
structure Engine where
  state       : EngineState
  configBase  : BitVec 64
  loadFault   : LoadFault
  fatalReason : Option FatalReason
  fatalRing   : Option FatalRing
  lastRefused : LastRefused
  deriving DecidableEq, Repr

/-! ## The part and the state -/

/-- The ES-2440: its ten blocks, whether RESETn is asserted (R181), and the model's own field `freeIndex`, the counter that the
free values of Config are taken at: the order in which one event's offers reach the domains (log 5), and the free bit of
QUERY CHANNEL (log 6). -/
structure Part where
  resetAsserted : Bool
  engine        : Engine
  clock         : Clock
  output        : Output
  timelines     : Timelines
  table         : Vector (Option TableEntry) 64
  domains       : Vector Domain 8
  inputs        : Vector FaultInput 16
  command       : CommandUnit
  posting       : Posting
  monitor       : Monitor
  freeIndex     : Nat
  deriving DecidableEq, Repr

/-- The machine: the part, and the commands that wait, first in, first out. -/
structure State where
  part    : Part
  pending : List Instr
  deriving DecidableEq, Repr

/-- No command of this block stops the machine: what the spec calls a fault (a violation, a timeout, FATAL) is an effect
on the state. So no constructor. -/
inductive Fault where
  deriving DecidableEq, Repr

/-- Why a command has no meaning in the model. -/
inductive Refusal where
  /-- Raised by `exec` for a command whose meaning is not written yet; no arm does now. Safe: the machine stops. -/
  | notModelled (mnemonic : String)
  deriving DecidableEq, Repr

/-! ## Reset values -/

/-- R49. -/
def Channel.reset : Channel := { level := .float, safe := .float, force := none, waiting := none }

/-- R49. -/
def Pair.reset : Pair := { enabled := false, polarity := .activeHigh, deadTime := 0, deadTimeEnd := 0 }

/-- R49. -/
def Output.reset : Output := { channels := Vector.replicate 32 Channel.reset, pairs := Vector.replicate 16 Pair.reset }

/-- R68. -/
def Domain.reset : Domain :=
  { state := .disarmed, members := 0, sources := 0, disposition := .discard, sequence := [], causes := 0,
    tripTime := 0, progress := [], contentionWaits := false }

/-- R104. -/
def FaultInput.reset : FaultInput :=
  { enabled := false, polarity := .activeHigh, mode := .level, interval := 1, filterCount := 1, report := false,
    filtered := false, run := 0, latch := false, spacing := 0 }

/-- R124. -/
def Supervisor.reset : Supervisor :=
  { state := .disabled, windowLength := 0, lowerLimit := 0, upperLimit := 0, failCount := 0, referenceTimeout := 0,
    failAction := none, bad := 0, verdict := none, lastCount := 0, window := none }

/-- R124, R108. -/
def Clock.reset : Clock :=
  { time := 0, source := .primary, primaryPresent := false, detectorCount := 0, supervisor := Supervisor.reset }

/-- R148, hard reset. -/
def QueueContext.reset : QueueContext :=
  { enabled := false, base := 0, size := 0, cq := 0, urgent := false, mask := 0, authority := 0, quota := 0,
    holdWhenFull := false, head := 0, tail := 0, state := .disabled, hold := none }

/-- R148. -/
def CommandUnit.reset : CommandUnit :=
  { queues := Vector.replicate 8 QueueContext.reset, path := .free, urgentPointer := 7, normalPointer := 7 }

/-- R170, hard reset. -/
def CompletionContext.reset : CompletionContext :=
  { enabled := false, base := 0, size := 0, threshold := 0, holdoff := 0, tail := 0, head := 0, phase := true,
    reserved := 0, unsignalled := 0, timer := none }

/-- R170, hard reset. -/
def NoticeRing.reset : NoticeRing :=
  { enabled := false, base := 0, size := 0, tail := 0, head := 0, phase := true, sequence := 0, pending := [], lost := 0 }

/-- R170, hard reset. -/
def Posting.reset : Posting :=
  { cqs := Vector.replicate 4 CompletionContext.reset, ring := NoticeRing.reset, writeList := [], abandoned := false,
    taken := none, restore := none, fault := none, causes := 0, enables := 0 }

/-- R171: every window unused. -/
def MemoryWindow.reset : MemoryWindow := { base := 0, length := 0, allowRead := false, allowWrite := false }

/-- R171, R179. -/
def Monitor.reset : Monitor :=
  { windows := Vector.replicate 8 MemoryWindow.reset, timeout := 0, command := none, posting := none, block := none }

/-- R180. -/
def Engine.reset : Engine :=
  { state := .off, configBase := 0, loadFault := .none, fatalReason := none, fatalRing := none, lastRefused := .none }

/-- The part at its hard-reset values, after RESETn has been negated (R181; log 3). -/
def Part.reset : Part :=
  { resetAsserted := false, engine := Engine.reset, clock := Clock.reset, output := Output.reset,
    timelines := Vector.replicate 32 [], table := Vector.replicate 64 none,
    domains := Vector.replicate 8 Domain.reset, inputs := Vector.replicate 16 FaultInput.reset,
    command := CommandUnit.reset, posting := Posting.reset, monitor := Monitor.reset, freeIndex := 0 }

/-- The machine right after a hard reset: no command waits. -/
def State.reset : State := { part := Part.reset, pending := [] }

end Sys2Proof.Machine
end

