-- ==== Sys2Proof/Machine/Operands.lean ====
section
/-!
DEFINITION. The operands: enumerated codes, channels and pairs by number, little-endian fields, the command record, the
step list and the Configuration Block as the part reads them (sections 12.2, 12.3), and the completion and notice
records as it writes them (section 12.4).
-/

namespace Sys2Proof.Machine

/-- A sum of time values, held at 2^64-1 (R22, R35, R75). -/
def satAdd (a b : Nat) : Nat := if a + b ≤ maxTime then a + b else maxTime

/-- Replaces element `i` of a vector by its image. -/
def updateAt {α : Type} {n : Nat} (v : Vector α n) (i : Fin n) (f : α → α) : Vector α n :=
  v.set i.val (f v[i]) i.isLt

/-! ## Channels and pairs (R32) -/

/-- One of the two channels of a pair. -/
inductive Side where
  | lower | upper
  deriving DecidableEq, Repr

/-- The other channel of the pair. -/
def Side.other : Side → Side
  | .lower => .upper
  | .upper => .lower

/-- The pair of a channel. -/
def pairOf (c : Fin 32) : Fin 16 := ⟨c.val / 2, by omega⟩

/-- Which of its pair's channels a channel is: channel 2k is the lower one. -/
def sideOf (c : Fin 32) : Side := if c.val % 2 = 0 then .lower else .upper

/-- Channel 2k or 2k+1 of pair k. -/
def channelOf (k : Fin 16) : Side → Fin 32
  | .lower => ⟨2 * k.val, by omega⟩
  | .upper => ⟨2 * k.val + 1, by omega⟩

/-! ## Enumerated codes (sections 12.3, 12.4) -/

/-- Level codes: 1 HIGH, 2 LOW, 3 FLOAT. -/
def Level.code : Level → Nat
  | .high => 1
  | .low => 2
  | .float => 3

/-- The level a code names. -/
def Level.ofCode : Nat → Option Level
  | 1 => some .high
  | 2 => some .low
  | 3 => some .float
  | _ => none

/-- Action codes: 1 DRIVE HIGH, 2 DRIVE LOW, 3 FLOAT, 4 MARK. -/
def Action.ofCode : Nat → Option Action
  | 1 => some .driveHigh
  | 2 => some .driveLow
  | 3 => some .float
  | 4 => some .mark
  | _ => none

/-- The idle level of CONFIGURE CHANNEL: a level, or KEEP (R44). -/
inductive IdleLevel where
  | level (l : Level)
  | keep
  deriving DecidableEq, Repr

/-- Idle level codes: the level codes, and 4 KEEP. -/
def IdleLevel.ofCode : Nat → Option IdleLevel
  | 1 => some (.level .high)
  | 2 => some (.level .low)
  | 3 => some (.level .float)
  | 4 => some .keep
  | _ => none

/-- Polarity codes: 1 ACTIVE HIGH, 2 ACTIVE LOW. -/
def Polarity.ofCode : Nat → Option Polarity
  | 1 => some .activeHigh
  | 2 => some .activeLow
  | _ => none

/-- Disposition codes: 1 DISCARD, 2 HOLD. -/
def Disposition.ofCode : Nat → Option Disposition
  | 1 => some .discard
  | 2 => some .hold
  | _ => none

/-- The code of a disposition in a notice detail (R198; log 9). -/
def Disposition.code : Disposition → Nat
  | .discard => 1
  | .hold => 2

/-- Mode codes: 1 LEVEL, 2 LATCHED. -/
def InputMode.ofCode : Nat → Option InputMode
  | 1 => some .level
  | 2 => some .latched
  | _ => none

/-- The code of a mode in a notice detail. -/
def InputMode.code : InputMode → Nat
  | .level => 1
  | .latched => 2

/-- Fail action codes: 1 FLAG ONLY, 2 SWITCH TO BACKUP. -/
def FailAction.ofCode : Nat → Option FailAction
  | 1 => some .flagOnly
  | 2 => some .switchToBackup
  | _ => none

/-- Causes are numbered 0-15 for fault inputs, then CLOCK, CONTENTION, SOFTWARE, HALT, ENGINE FAULT. -/
def Cause.number : Cause → Fin 21
  | .input n => ⟨n.val, by omega⟩
  | .clock => 16
  | .contention => 17
  | .software => 18
  | .halt => 19
  | .engineFault => 20

/-- Domain state codes: 0 DISARMED, 1 ARMED, 2 TRIPPING, 3 TRIPPED. -/
def DomainState.code : DomainState → Nat
  | .disarmed => 0
  | .armed => 1
  | .tripping => 2
  | .tripped => 3

/-- Supervisor state codes: 0 DISABLED, 1 SETTLING, 2 MEASURING, 3 FAILED. -/
def SupervisorState.code : SupervisorState → Nat
  | .disabled => 0
  | .settling => 1
  | .measuring => 2
  | .failed => 3

/-- Source codes: 0 PRIMARY, 1 BACKUP. -/
def Source.code : Source → Nat
  | .primary => 0
  | .backup => 1

/-- Verdict codes: 0 none, 1 IN RANGE, 2 HIGH, 3 LOW, 4 NO REFERENCE, 5 PRIMARY STOPPED. -/
def verdictCode : Option Verdict → Nat
  | none => 0
  | some .inRange => 1
  | some .high => 2
  | some .low => 3
  | some .noReference => 4
  | some .primaryStopped => 5

/-- Reasons of CLOCK SOURCE CHANGED. -/
def SourceReason.code : SourceReason → Nat
  | .primaryStopped => 1
  | .supervisorFailed => 2
  | .restored => 3

/-- Reasons of QUEUE ERROR. -/
def QueueErrorReason.code : QueueErrorReason → Nat
  | .fetchViolation => 1
  | .fetchTimeout => 2
  | .fetchBusError => 3
  | .badTail => 4

/-- Status codes of a completion (section 12.4). -/
def Status.code : Status → Nat
  | .ok => 0x00
  | .late => 0x01
  | .partially => 0x02
  | .abandoned => 0x03
  | .badKind => 0x10
  | .badField => 0x11
  | .noAuthority => 0x12
  | .noSpace => 0x13
  | .noTracking => 0x14
  | .tooLate => 0x15
  | .forced => 0x16
  | .wrongState => 0x17
  | .sourceActive => 0x18
  | .halted => 0x19
  | .accessFault => 0x1A

/-- The bit of a drop cause in a drop-cause set (section 12.4). -/
def DropCause.mask : DropCause → BitVec 5
  | .cancelled => 0b00001
  | .discarded => 0b00010
  | .expired => 0b00100
  | .blocked => 0b01000
  | .halted => 0b10000

/-! ## Little-endian fields (section 1.6) -/

/-- The little-endian number of a byte list. -/
def leNumber : List Byte → Nat
  | [] => 0
  | b :: rest => b.toNat + 256 * leNumber rest

/-- The field of `size` bytes at `offset` of a record. -/
def field (data : List Byte) (offset size : Nat) : Nat := leNumber ((data.drop offset).take size)

/-- The field of a record as a bit vector of `8 * size` bits. -/
def fieldBits (data : List Byte) (offset size : Nat) : BitVec (8 * size) := BitVec.ofNat _ (field data offset size)

/-- `n` as `size` little-endian bytes. -/
def leBytes : Nat → Nat → List Byte
  | 0, _ => []
  | size + 1, n => BitVec.ofNat 8 n :: leBytes size (n / 256)

/-- A Boolean as a number. -/
def bit (b : Bool) : Nat := if b then 1 else 0

/-! ## The command record (section 12.3) -/

/-- A step entry read at an offset. -/
def readStepEntry (data : List Byte) (at_ : Nat) : StepEntry :=
  { offset := fieldBits data at_ 4, tag := fieldBits data (at_ + 4) 2, channel := fieldBits data (at_ + 6) 1,
    action := fieldBits data (at_ + 7) 1 }

/-- The step entries of a step list: consecutive 8-byte entries (R17). -/
def readStepList (data : List Byte) (count : Nat) : List StepEntry :=
  (List.range count).map fun n => readStepEntry data (8 * n)

/-- A safe-sequence entry read at an offset: offset in bytes 0-2, channel in byte 3. -/
def readSequenceField (data : List Byte) (at_ : Nat) : SequenceField :=
  { offset := fieldBits data at_ 3, channel := fieldBits data (at_ + 3) 1 }

/-- The header of a command record. -/
def readHeader (data : List Byte) : Header :=
  { flags := fieldBits data 1 1, id := fieldBits data 2 2, time := fieldBits data 8 8 }

/-- The kind and body of a command record (R197). -/
def readCommand (data : List Byte) : Command :=
  match field data 0 1 with
  | 0x01 => .schedule
      { stepCount := fieldBits data 16 1, entries := [24, 32, 40, 48, 56].map (readStepEntry data) }
  | 0x02 => .scheduleRepeating
      { channel := fieldBits data 16 1, levelA := fieldBits data 17 1, levelB := fieldBits data 18 1,
        tag := fieldBits data 20 2, cycleCount := fieldBits data 22 2, offset := fieldBits data 24 4,
        intervalAfterA := fieldBits data 28 4, intervalAfterB := fieldBits data 32 4 }
  | 0x03 => .scheduleList { stepCount := fieldBits data 16 2, listAddress := fieldBits data 24 8 }
  | 0x04 => .cancelTag (fieldBits data 16 2)
  | 0x05 => .cancelChannel (fieldBits data 16 1)
  | 0x06 => .configureChannel
      { channel := fieldBits data 16 1, safeLevel := fieldBits data 17 1, idleLevel := fieldBits data 18 1 }
  | 0x07 => .configurePair
      { pair := fieldBits data 16 1, enable := fieldBits data 17 1, polarity := fieldBits data 18 1,
        deadTime := fieldBits data 20 2 }
  | 0x08 => .queryChannel (fieldBits data 16 1)
  | 0x09 => .configureDomain
      { domain := fieldBits data 16 1, disposition := fieldBits data 17 1, members := fieldBits data 20 4,
        sources := fieldBits data 24 4 }
  | 0x0A => .loadSafeSequence
      { domain := fieldBits data 16 1, entryCount := fieldBits data 17 1,
        entries := [24, 28, 32, 36, 40, 44, 48, 52].map (readSequenceField data) }
  | 0x0B => .armDomain (fieldBits data 16 1)
  | 0x0C => .disarmDomain (fieldBits data 16 1)
  | 0x0D => .tripDomain (fieldBits data 16 1)
  | 0x0E => .releaseDomain (fieldBits data 16 1)
  | 0x0F => .queryDomain (fieldBits data 16 1)
  | 0x10 => .configureFaultInput
      { input := fieldBits data 16 1, flags := fieldBits data 17 1, polarity := fieldBits data 18 1,
        mode := fieldBits data 19 1, sampleInterval := fieldBits data 20 2, filterCount := fieldBits data 22 1 }
  | 0x11 => .clearFaultLatch (fieldBits data 16 1)
  | 0x12 => .configureSupervisor
      { enable := fieldBits data 16 1, failCount := fieldBits data 17 1, failAction := fieldBits data 18 1,
        windowLength := fieldBits data 20 2, lowerLimit := fieldBits data 24 4, upperLimit := fieldBits data 28 4,
        referenceTimeout := fieldBits data 32 4 }
  | 0x13 => .restorePrimaryClock
  | 0x14 => .readTime
  | kind => .unknownKind (BitVec.ofNat 8 kind)

/-! ## The Configuration Block (section 12.2) -/

/-- A submission queue's entry, raw. -/
structure QueueEntry where
  base         : Nat
  size         : Nat
  quota        : Nat
  mask         : BitVec 32
  cq           : Nat
  enabled      : Bool
  holdWhenFull : Bool
  authority    : BitVec 4
  priority     : Nat
  deriving DecidableEq, Repr

/-- A completion queue's entry, raw. -/
structure CompletionEntry where
  base      : Nat
  size      : Nat
  holdoff   : Nat
  threshold : Nat
  enabled   : Bool
  deriving DecidableEq, Repr

/-- A window's entry, raw. -/
structure WindowEntry where
  base        : Nat
  length      : Nat
  permissions : BitVec 8
  deriving DecidableEq, Repr

/-- The Configuration Block, raw. -/
structure Block where
  magic         : Nat
  version       : Nat
  timeout       : Nat
  noticeBase    : Nat
  noticeSize    : Nat
  noticeEnabled : Bool
  queues        : Vector QueueEntry 8
  cqs           : Vector CompletionEntry 4
  windows       : Vector WindowEntry 8
  deriving DecidableEq, Repr

/-- A submission queue's entry at 0x020 + 20 n (R196). DEDUCED (log 20): the authority set is bits 0 to 3, as the table of section
12.2 has it, although R196 calls bits 2 to 7 ignored. -/
def readQueueEntry (data : List Byte) (n : Nat) : QueueEntry :=
  let at_ := 0x20 + 20 * n
  { base := field data at_ 8, size := field data (at_ + 8) 2, quota := field data (at_ + 10) 2,
    mask := fieldBits data (at_ + 12) 4, cq := field data (at_ + 16) 1,
    enabled := (field data (at_ + 17) 1).testBit 0, holdWhenFull := (field data (at_ + 17) 1).testBit 1,
    authority := BitVec.ofNat 4 (field data (at_ + 18) 1), priority := field data (at_ + 19) 1 }

/-- A completion queue's entry at 0x0C0 + 16 n. -/
def readCompletionEntry (data : List Byte) (n : Nat) : CompletionEntry :=
  let at_ := 0xC0 + 16 * n
  { base := field data at_ 8, size := field data (at_ + 8) 2, holdoff := field data (at_ + 10) 2,
    threshold := field data (at_ + 12) 1, enabled := (field data (at_ + 13) 1).testBit 0 }

/-- A window's entry at 0x100 + 16 w. -/
def readWindowEntry (data : List Byte) (w : Nat) : WindowEntry :=
  let at_ := 0x100 + 16 * w
  { base := field data at_ 8, length := field data (at_ + 8) 4, permissions := fieldBits data (at_ + 12) 1 }

/-- The Configuration Block as its 384 bytes spell it (R196). -/
def readBlock (data : List Byte) : Block :=
  { magic := field data 0 4, version := field data 4 2, timeout := field data 6 2, noticeBase := field data 8 8,
    noticeSize := field data 0x10 2, noticeEnabled := (field data 0x12 1).testBit 0,
    queues := Vector.ofFn fun n : Fin 8 => readQueueEntry data n.val,
    cqs := Vector.ofFn fun n : Fin 4 => readCompletionEntry data n.val,
    windows := Vector.ofFn fun w : Fin 8 => readWindowEntry data w.val }

/-! ## The records the part writes (section 12.4) -/

/-- The 16 bytes of a completion, with the phase of its queue at issue (R154, R155). -/
def completionBytes (c : Completion) (phase : Bool) : List Byte :=
  leBytes 8 c.value ++ leBytes 4 c.aux ++ leBytes 2 c.id.toNat ++
    leBytes 1 (c.status.code + 32 * c.queue.val) ++ leBytes 1 (c.drops.toNat + 128 * bit phase)

/-- The kind code of a notice. -/
def NoticeBody.code : NoticeBody → Nat
  | .domainTripped .. => 1
  | .domainCauseAdded .. => 2
  | .domainSafe .. => 3
  | .domainReleased .. => 4
  | .pairContention .. => 5
  | .faultInputActive .. => 6
  | .clockFailed .. => 7
  | .clockSourceChanged .. => 8
  | .queueError .. => 9

/-- A level in a notice detail, 0 where it is absent (R198). -/
def optLevelCode : Option Level → Nat
  | none => 0
  | some l => l.code

/-- The detail fields of a notice, in the order listed; the rest of the 16 bytes is zero (R198). DEDUCED (log 9): the last verdict
and the source of CLOCK FAILED stand in the codes of READ TIME's aux (section 12.4), which gives them none of their own. -/
def NoticeBody.fields : NoticeBody → List Byte
  | .domainTripped d cause disp notDone members discarded held =>
      leBytes 1 d.val ++ leBytes 1 cause.number.val ++ leBytes 1 disp.code ++ leBytes 1 notDone ++
        leBytes 4 members.toNat ++ leBytes 2 discarded ++ leBytes 2 held
  | .domainCauseAdded d cause state causes =>
      leBytes 1 d.val ++ leBytes 1 cause.number.val ++ leBytes 1 state.code ++ leBytes 1 0 ++ leBytes 4 causes.toNat
  | .domainSafe d causes tripTime => leBytes 1 d.val ++ leBytes 3 0 ++ leBytes 4 causes.toNat ++ leBytes 8 tripTime
  | .domainReleased d causes kept carried expired =>
      leBytes 1 d.val ++ leBytes 3 0 ++ leBytes 4 causes.toNat ++ leBytes 2 kept ++ leBytes 2 carried ++
        leBytes 2 expired
  | .pairContention k loRef upRef loReq upReq loLev upLev dropped =>
      leBytes 1 k.val ++ leBytes 1 (bit loRef + 2 * bit upRef) ++ leBytes 1 (optLevelCode loReq) ++
        leBytes 1 (optLevelCode upReq) ++ leBytes 1 (optLevelCode loLev) ++ leBytes 1 (optLevelCode upLev) ++
        leBytes 2 dropped
  | .faultInputActive n mode filtered domains =>
      leBytes 1 n.val ++ leBytes 1 mode.code ++ leBytes 1 (bit filtered) ++ leBytes 1 domains.toNat
  | .clockFailed verdict counter source count =>
      leBytes 1 (verdictCode verdict) ++ leBytes 1 counter ++ leBytes 1 source.code ++ leBytes 1 0 ++ leBytes 4 count
  | .clockSourceChanged source reason state =>
      leBytes 1 source.code ++ leBytes 1 reason.code ++ leBytes 1 state.code
  | .queueError q reason head tail index parked =>
      leBytes 1 q.val ++ leBytes 1 reason.code ++ leBytes 2 head ++ leBytes 2 tail ++ leBytes 2 index ++
        leBytes 1 (bit parked)

/-- The 32 bytes of a notice, with the sequence number, lost count and phase it takes at issue (R162, R164). -/
def noticeBytes (n : Notice) (sequence lost : Nat) (phase : Bool) : List Byte :=
  let detail := n.body.fields
  leBytes 8 n.time ++ leBytes 4 sequence ++ leBytes 2 lost ++ leBytes 1 n.body.code ++ leBytes 1 (128 * bit phase) ++
    (detail ++ List.replicate (16 - detail.length) 0)

end Sys2Proof.Machine
end

