-- ==== Sys2Proof/Machine/Flags.lean ====
section
/-!
DEFINITION. The words software reads: interrupt causes, STATE, and the packed aux values (sections 12.1, 12.4).
-/

namespace Sys2Proof.Machine

/-! ## Interrupt causes (R165, section 12.1) -/

/-- The bit of a completion queue's cause. -/
def cqCause (n : Fin 4) : BitVec 7 := 1#7 <<< n.val

/-- The bit of NOTICE. -/
def noticeCause : BitVec 7 := 0b0010000

/-- The bit of ENGINE. -/
def engineCause : BitVec 7 := 0b0100000

/-- The bit of NOTIFY REJECTED. -/
def notifyRejectedCause : BitVec 7 := 0b1000000

/-- IRQn is asserted while at least one cause is both set and enabled (R166). -/
def Posting.irqAsserted (u : Posting) : Bool := u.causes &&& u.enables != 0

/-! ## STATE (R184, section 12.1) -/

/-- Engine state codes. -/
def EngineState.code : EngineState → Nat
  | .off => 0
  | .loading => 1
  | .running => 2
  | .halting => 3
  | .halted => 4
  | .fatal => 5

/-- Load fault codes. -/
def LoadFault.code : LoadFault → Nat
  | .none => 0
  | .blockTimeout => 1
  | .blockBusError => 2
  | .badMagic => 3
  | .badVersion => 4
  | .badRing => 5
  | .badBinding => 6
  | .badWindow => 7

/-- Fatal reason codes, 0 NONE. -/
def fatalReasonCode : Option FatalReason → Nat
  | none => 0
  | some .completionWriteViolation => 1
  | some .completionWriteTimeout => 2
  | some .completionWriteBusError => 3
  | some .noticeWriteViolation => 4
  | some .noticeWriteTimeout => 5
  | some .noticeWriteBusError => 6

/-- Fatal ring codes, 0 none. -/
def fatalRingCode : Option FatalRing → Nat
  | none => 0
  | some (.cq n) => n.val + 1
  | some .noticeRing => 5

/-- Last refused operation codes. -/
def LastRefused.code : LastRefused → Nat
  | .none => 0
  | .start => 1
  | .halt => 2
  | .unknown => 3

/-- The STATE register (R184). -/
def Engine.stateWord (e : Engine) : BitVec 32 :=
  BitVec.ofNat 32 (e.state.code + 2 ^ 4 * e.loadFault.code + 2 ^ 8 * fatalReasonCode e.fatalReason +
    2 ^ 12 * fatalRingCode e.fatalRing + 2 ^ 16 * e.lastRefused.code)

/-- What a read of a register gives (R182, R195): nothing is changed by it. Zero while RESETn is asserted (R181), and at
an offset that holds no register (log 13). -/
def readRegister (p : Part) (offset : BitVec 8) : BitVec 32 :=
  if p.resetAsserted then 0
  else match offset.toNat with
    | 0x00 => Config.ident
    | 0x08 => p.engine.configBase.setWidth 32
    | 0x0C => (p.engine.configBase >>> 32).setWidth 32
    | 0x14 => p.engine.stateWord
    | 0x18 => p.posting.causes.setWidth 32
    | 0x1C => p.posting.enables.setWidth 32
    | _ => 0

/-! ## Packed aux values (section 12.4) -/

/-- QUERY CHANNEL (R48). `reasonBit` is what stands for the force reason. -/
def channelAux (c : Channel) (pair : Pair) (steps : Nat) (reasonBit : Bool) : Nat :=
  c.level.code + 2 ^ 2 * c.safe.code + 2 ^ 4 * bit c.force.isSome + 2 ^ 5 * bit reasonBit +
    2 ^ 6 * bit c.waiting.isSome + 2 ^ 7 * bit pair.enabled + 2 ^ 8 * bit (pair.polarity == .activeLow) +
    2 ^ 10 * steps

/-- The number of progress parts that are not DONE. -/
def Domain.notDone (d : Domain) : Nat := (d.progress.filter fun x => x.state != .done).length

/-- QUERY DOMAIN (R91): parts not DONE is 0 outside TRIPPING. -/
def Domain.aux (d : Domain) : Nat :=
  d.causes.toNat + 2 ^ 21 * d.state.code + 2 ^ 23 * bit (d.disposition == .hold) +
    2 ^ 24 * (if d.state = .tripping then d.notDone else 0)

/-- CONFIGURE FAULT INPUT (R100): the filtered level and the latch before the command. -/
def FaultInput.aux (i : FaultInput) : Nat := bit i.filtered + 2 * bit i.latch

/-- CONFIGURE SUPERVISOR and RESTORE PRIMARY CLOCK (R120, R121): supervisor state and source before the command. -/
def Clock.beforeAux (c : Clock) : Nat := c.supervisor.state.code + 4 * c.source.code

/-- READ TIME (R123). -/
def Clock.aux (c : Clock) : Nat :=
  c.source.code + 2 * bit c.primaryPresent + 2 ^ 2 * c.supervisor.state.code + 2 ^ 4 * c.supervisor.bad +
    2 ^ 8 * verdictCode c.supervisor.verdict

end Sys2Proof.Machine
end

