-- ==== Sys2Proof/Machine/Guard.lean ====
section
/-!
DEFINITION. The pair guard (section 3.3) as a function on one pair: its two channels, its record, and a batch.
-/

namespace Sys2Proof.Machine

/-- One pair with its two channels. -/
structure PairView where
  lower : Channel
  upper : Channel
  pair  : Pair
  deriving DecidableEq, Repr

/-- The kind of a level request (R30): STEP, scheduled, or one of the non-scheduled kinds. -/
inductive RequestKind where
  | step
  | nonScheduled (kind : WaitKind)
  deriving DecidableEq, Repr

/-- One channel's part of a batch: the level requested and the kind. -/
structure Request where
  level : Level
  kind  : RequestKind
  deriving DecidableEq, Repr

/-- The guard's answer to a part (R21), and `waits` for a non-scheduled part that became a waiting request (R38). -/
inductive Answer where
  | applied
  | blocked
  | deferred (until_ : Nat)
  | waits
  deriving DecidableEq, Repr

/-- The report of an applied DOMAIN SAFE request (R42). -/
structure SafeReport where
  side   : Side
  domain : Fin 8
  entry  : Option Nat
  deriving DecidableEq, Repr

/-- What the guard hands back for a batch. -/
structure GuardResult where
  view    : PairView
  lower   : Option Answer
  upper   : Option Answer
  reports : List SafeReport
  deriving DecidableEq, Repr

/-- The channel on one side. -/
def PairView.get (v : PairView) : Side → Channel
  | .lower => v.lower
  | .upper => v.upper

/-- The view with another channel on one side. -/
def PairView.set (v : PairView) (side : Side) (c : Channel) : PairView :=
  match side with
  | .lower => { v with lower := c }
  | .upper => { v with upper := c }

/-- The level the polarity names as active (R32). -/
def Polarity.activeLevel : Polarity → Level
  | .activeHigh => .high
  | .activeLow => .low

/-- Whether a level is active in a pair: no level is, in a disabled pair (R32). -/
def Pair.isActive (p : Pair) (l : Level) : Bool := p.enabled && l == p.polarity.activeLevel

/-- The class of a part (R34). -/
inductive PartClass where
  | noChange | inactiveGoing | activeGoing
  deriving DecidableEq, Repr

/-- R34: no change, inactive-going or active-going, by the requested and the present level. -/
def classify (p : Pair) (present requested : Level) : PartClass :=
  if requested = present then .noChange
  else if p.isActive requested then .activeGoing
  else .inactiveGoing

/-- The report an applied request makes, if it is a DOMAIN SAFE request (R42). -/
def RequestKind.report (side : Side) : RequestKind → List SafeReport
  | .nonScheduled (.domainSafe d e) => [{ side := side, domain := d, entry := e }]
  | _ => []

/-- Puts a level on one side. -/
def PairView.apply (v : PairView) (side : Side) (l : Level) : PairView := v.set side { v.get side with level := l }

/-- Sets or removes the waiting request of one side. -/
def PairView.wait (v : PairView) (side : Side) (w : Option Waiting) : PairView :=
  v.set side { v.get side with waiting := w }

/-- R39: a request for a channel, scheduled or not, replaces or discards the channel's waiting request. -/
def PairView.supersede (v : PairView) (side : Side) (r : Option Request) : PairView :=
  if r.isSome then v.wait side none else v

/-- R40: the waiting request of one side is applied and becomes absent; its report, if it makes one. -/
def PairView.applyWaiting (v : PairView) (side : Side) : PairView × List SafeReport :=
  match (v.get side).waiting with
  | none => (v, [])
  | some w => ((v.apply side w.level).wait side none, (RequestKind.nonScheduled w.kind).report side)

/-- R35: an inactive-going part is applied at once. A channel that was active sets the dead-time end, and with D equal
to 0 the partner's waiting request is applied in the same event (R40). -/
def PairView.goInactive (v : PairView) (t : Nat) (side : Side) (l : Level) : PairView × List SafeReport :=
  let applied := v.apply side l
  if v.pair.isActive (v.get side).level then
    let ended := { applied with pair := { v.pair with deadTimeEnd := satAdd t v.pair.deadTime } }
    if v.pair.deadTime = 0 then ended.applyWaiting side.other else (ended, [])
  else (applied, [])

/-- The first half of the guard for one part: a no-change part is applied, an inactive-going part goes inactive, and an
active-going part is left to be judged (R34, R35). -/
def PairView.settlePart (v : PairView) (t : Nat) (side : Side) (r : Option Request) :
    PairView × Option Answer × List SafeReport :=
  match r with
  | none => (v, none, [])
  | some q =>
    match classify v.pair (v.get side).level q.level with
    | .noChange => (v, some .applied, q.kind.report side)
    | .inactiveGoing =>
      let (v', reports) := v.goInactive t side q.level
      (v', some .applied, q.kind.report side ++ reports)
    | .activeGoing => (v, none, [])

/-- Whether a side holds a waiting active-going request. -/
def PairView.waitingActive (v : PairView) (side : Side) : Bool :=
  match (v.get side).waiting with
  | none => false
  | some w => v.pair.isActive w.level

/-- R36, conditions 1 (a waiting partner), 2, 3 and 4, for one active-going part. -/
def PairView.judge (v : PairView) (t : Nat) (side : Side) (q : Request) :
    PairView × Answer × List SafeReport :=
  let partnerActive := v.pair.isActive (v.get side.other).level
  match q.kind with
  | .step =>
    if !partnerActive && v.waitingActive side.other && v.pair.deadTimeEnd ≤ t then (v, .blocked, [])
    else if partnerActive then (v, .blocked, [])
    else if t < v.pair.deadTimeEnd then (v, .deferred v.pair.deadTimeEnd, [])
    else (v.apply side q.level, .applied, [])
  | .nonScheduled kind =>
    if partnerActive || t < v.pair.deadTimeEnd then
      (v.wait side (some { level := q.level, kind := kind }), .waits, [])
    else (v.apply side q.level, .applied, q.kind.report side)

/-- The second half of the guard for one part: judged if the first half left it (R36). -/
def PairView.judgePart (v : PairView) (t : Nat) (side : Side) (r : Option Request) (settled : Option Answer) :
    PairView × Option Answer × List SafeReport :=
  match r, settled with
  | some q, none =>
    let (v', answer, reports) := v.judge t side q
    (v', some answer, reports)
  | _, _ => (v, settled, [])

/-- R36, condition 1: both parts are scheduled and both are active-going. -/
def bothActiveGoing (lower upper : Option Request) (lowerSettled upperSettled : Option Answer) : Bool :=
  match lower, upper, lowerSettled, upperSettled with
  | some lo, some up, none, none => lo.kind == .step && up.kind == .step
  | _, _, _, _ => false

/-- A batch for an enabled pair, taken at time value t (R34 to R40). -/
def PairView.guardEnabled (v : PairView) (t : Nat) (lower upper : Option Request) : GuardResult :=
  let v0 := (v.supersede .lower lower).supersede .upper upper
  let (v1, lowerSettled, reports1) := v0.settlePart t .lower lower
  let (v2, upperSettled, reports2) := v1.settlePart t .upper upper
  if bothActiveGoing lower upper lowerSettled upperSettled then
    { view := v2, lower := some .blocked, upper := some .blocked, reports := reports1 ++ reports2 }
  else
    let (v3, lowerAnswer, reports3) := v2.judgePart t .lower lower lowerSettled
    let (v4, upperAnswer, reports4) := v3.judgePart t .upper upper upperSettled
    { view := v4, lower := lowerAnswer, upper := upperAnswer, reports := reports1 ++ reports2 ++ reports3 ++ reports4 }

/-- R33: a part for a channel of a disabled pair is applied at once, with no waiting request left behind. -/
def PairView.applyDisabled (v : PairView) (side : Side) (r : Option Request) :
    PairView × Option Answer × List SafeReport :=
  match r with
  | none => (v, none, [])
  | some q => ((v.wait side none).apply side q.level, some .applied, q.kind.report side)

/-- A batch at a pair, taken at time value t. -/
def PairView.batch (v : PairView) (t : Nat) (lower upper : Option Request) : GuardResult :=
  if v.pair.enabled then v.guardEnabled t lower upper
  else
    let (v1, lowerAnswer, reports1) := v.applyDisabled .lower lower
    let (v2, upperAnswer, reports2) := v1.applyDisabled .upper upper
    { view := v2, lower := lowerAnswer, upper := upperAnswer, reports := reports1 ++ reports2 }

/-- R40, dead-time expiry for one side: its waiting request is applied if the partner is inactive. -/
def PairView.expireSide (v : PairView) (side : Side) : PairView × List SafeReport :=
  if v.pair.isActive (v.get side.other).level then (v, []) else v.applyWaiting side

/-- R40: each waiting request on the pair whose partner is inactive is applied. -/
def PairView.expire (v : PairView) : PairView × List SafeReport :=
  let (v1, reports1) := v.expireSide .lower
  let (v2, reports2) := v1.expireSide .upper
  (v2, reports1 ++ reports2)

end Sys2Proof.Machine
end

