-- ==== Sys2Proof/Machine/Timeline.lean ====
section
/-!
DEFINITION. What the Step Scheduler does to one channel timeline (chapter Step Store and Channel Timelines), without
the rest of the part: placing, batches, the three answers, the repeat arithmetic and the carrying forward at a release.
-/

namespace Sys2Proof.Machine

/-- Places a step after every step whose effective time is at or before its own (R13, R22). -/
def placeStep (s : Step) : List Step → List Step
  | [] => [s]
  | x :: rest => if x.effective ≤ s.effective then x :: placeStep s rest else s :: x :: rest

/-- Places several steps, one after another. -/
def placeSteps (steps : List Step) (timeline : List Step) : List Step :=
  steps.foldl (fun tl s => placeStep s tl) timeline

/-- The steps of the timeline whose effective time is t, in timeline order: the channel's part of the batch (R20). -/
def batchAt (t : Nat) (timeline : List Step) : List Step := timeline.filter fun s => s.effective == t

/-- The steps that are not in the batch. -/
def restAt (t : Nat) (timeline : List Step) : List Step := timeline.filter fun s => s.effective != t

/-- The level the repeat part names as next (R2). -/
def Repeat.nextLevel (r : Repeat) : Level :=
  match r.next with
  | .a => r.levelA
  | .b => r.levelB

/-- The level a step requests; MARK leaves the request as it stood (R20). -/
def StepBody.request (present : Level) : StepBody → Level
  | .single .driveHigh => .high
  | .single .driveLow => .low
  | .single .float => .float
  | .single .mark => present
  | .repeating r => r.nextLevel

/-- The final requested level of a channel's part, read in order from the present level (R20). -/
def finalLevel (present : Level) (part : List Step) : Level := part.foldl (fun l s => s.body.request l) present

/-- One transition of a repeating step counted (R22): the new repeat part and effective time, or none when its cycles
have run out. -/
def Repeat.countTransition (r : Repeat) (effective : Nat) : Option (Repeat × Nat) :=
  match r.next with
  | .a => some ({ r with next := .b }, satAdd effective r.afterA)
  | .b =>
    if r.cycles - 1 = 0 then none
    else some ({ r with cycles := r.cycles - 1, next := .a }, satAdd effective r.afterB)

/-- A step of an APPLIED part: gone, executed, or advanced (R21, R22). -/
def Step.afterApplied (s : Step) : Option Step :=
  match s.body with
  | .single _ => none
  | .repeating r =>
    match r.countTransition s.effective with
    | none => none
    | some (r', t) => some { s with body := .repeating r', effective := t }

/-- The timeline after an APPLIED answer to the batch at t: executed steps gone, advanced steps placed anew (R21, R22). -/
def applyBatch (t : Nat) (timeline : List Step) : List Step :=
  placeSteps ((batchAt t timeline).filterMap Step.afterApplied) (restAt t timeline)

/-- The steps of the batch at t that an APPLIED answer executes, in order (R21, R22). -/
def executedAt (t : Nat) (timeline : List Step) : List Step :=
  (batchAt t timeline).filter fun s => s.afterApplied.isNone

/-- R21: a DEFERRED answer gives effective time d to every step at or before d; their order is kept. -/
def deferBatch (d : Nat) (timeline : List Step) : List Step :=
  timeline.map fun s => if s.effective ≤ d then { s with effective := d } else s

/-- R83: counts off transitions of a held repeating step until its effective time is at or after the release time, or
its cycles run out (none). Every second transition uses up a cycle, so `fuel` is at most two per cycle. -/
def Repeat.carry (release : Nat) : Nat → Repeat → Nat → Option (Repeat × Nat)
  | 0, r, effective => some (r, effective)
  | fuel + 1, r, effective =>
    if release ≤ effective then some (r, effective)
    else
      match r.countTransition effective with
      | none => none
      | some (r', effective') => r'.carry release fuel effective'

/-- What a release does with one held step (R82, R83). -/
inductive ReleaseFate where
  | kept
  | carried (s : Step)
  | expired
  deriving DecidableEq, Repr

/-- R82, R83. -/
def Step.releaseFate (release : Nat) (s : Step) : ReleaseFate :=
  if release ≤ s.effective then .kept
  else
    match s.body with
    | .single _ => .expired
    | .repeating r =>
      match r.carry release (2 * r.cycles + 1) s.effective with
      | none => .expired
      | some (r', t) => .carried { s with body := .repeating r', effective := t }

/-- The step as it stands after being carried forward, if the release carries it. -/
def Step.carriedStep (release : Nat) (s : Step) : Option Step :=
  match s.releaseFate release with
  | .carried s' => some s'
  | _ => none

/-- The timeline after a release: expired steps gone, carried steps placed anew, the others unchanged (R82, R83). -/
def releaseTimeline (release : Nat) (timeline : List Step) : List Step :=
  placeSteps (timeline.filterMap (Step.carriedStep release))
    (timeline.filter fun s => s.releaseFate release == .kept)

/-- The steps a release drops EXPIRED, in timeline order. -/
def expiredAt (release : Nat) (timeline : List Step) : List Step :=
  timeline.filter fun s => s.releaseFate release == .expired

end Sys2Proof.Machine
end

