-- ==== Sys2Proof/Machine/Ops.lean ====
section
/-!
DEFINITION. The named operations on the part that the commands share: reading and changing one record of a block, the
access check and the accesses, handing a completion or a notice to the Posting Unit, reporting a step to the Completion
Tracker, removing steps, and making a batch of level requests.
-/

namespace Sys2Proof.Machine

namespace Part

/-! ## One record of a block -/

/-- The timebase value. -/
def now (p : Part) : Nat := p.clock.time

/-- The channel record of c. -/
def channel (p : Part) (c : Fin 32) : Channel := p.output.channels[c]

/-- The pair record of k. -/
def pair (p : Part) (k : Fin 16) : Pair := p.output.pairs[k]

/-- The timeline of channel c. -/
def timeline (p : Part) (c : Fin 32) : List Step := p.timelines[c]

/-- The domain record of d. -/
def domain (p : Part) (d : Fin 8) : Domain := p.domains[d]

/-- The input record of n. -/
def input (p : Part) (n : Fin 16) : FaultInput := p.inputs[n]

/-- The context of submission queue q. -/
def queue (p : Part) (q : Fin 8) : QueueContext := p.command.queues[q]

/-- The context of completion queue n. -/
def cq (p : Part) (n : Fin 4) : CompletionContext := p.posting.cqs[n]

/-- The Outstanding Command Table entry i. -/
def entry (p : Part) (i : Fin 64) : Option TableEntry := p.table[i]

/-- Changes the channel record of c. -/
def modChannel (p : Part) (c : Fin 32) (f : Channel → Channel) : Part :=
  { p with output := { p.output with channels := updateAt p.output.channels c f } }

/-- Changes the pair record of k. -/
def modPair (p : Part) (k : Fin 16) (f : Pair → Pair) : Part :=
  { p with output := { p.output with pairs := updateAt p.output.pairs k f } }

/-- Replaces the timeline of c. -/
def setTimeline (p : Part) (c : Fin 32) (tl : List Step) : Part :=
  { p with timelines := updateAt p.timelines c fun _ => tl }

/-- Replaces the table entry i. -/
def setEntry (p : Part) (i : Fin 64) (e : Option TableEntry) : Part :=
  { p with table := updateAt p.table i fun _ => e }

/-- Changes the domain record of d. -/
def modDomain (p : Part) (d : Fin 8) (f : Domain → Domain) : Part := { p with domains := updateAt p.domains d f }

/-- Changes the input record of n. -/
def modInput (p : Part) (n : Fin 16) (f : FaultInput → FaultInput) : Part := { p with inputs := updateAt p.inputs n f }

/-- Changes the clock block. -/
def modClock (p : Part) (f : Clock → Clock) : Part := { p with clock := f p.clock }

/-- Changes the supervisor record. -/
def modSupervisor (p : Part) (f : Supervisor → Supervisor) : Part :=
  p.modClock fun c => { c with supervisor := f c.supervisor }

/-- Changes the Command Unit. -/
def modCommand (p : Part) (f : CommandUnit → CommandUnit) : Part := { p with command := f p.command }

/-- Changes the context of submission queue q. -/
def modQueue (p : Part) (q : Fin 8) (f : QueueContext → QueueContext) : Part :=
  p.modCommand fun u => { u with queues := updateAt u.queues q f }

/-- Sets the command path. -/
def setPath (p : Part) (path : CommandPath) : Part := p.modCommand fun u => { u with path := path }

/-- Changes the Posting Unit. -/
def modPosting (p : Part) (f : Posting → Posting) : Part := { p with posting := f p.posting }

/-- Changes the context of completion queue n. -/
def modCq (p : Part) (n : Fin 4) (f : CompletionContext → CompletionContext) : Part :=
  p.modPosting fun u => { u with cqs := updateAt u.cqs n f }

/-- Changes the notice ring context. -/
def modRing (p : Part) (f : NoticeRing → NoticeRing) : Part := p.modPosting fun u => { u with ring := f u.ring }

/-- Sets an interrupt cause; one already set stays set (R165). -/
def setCause (p : Part) (cause : BitVec 7) : Part := p.modPosting fun u => { u with causes := u.causes ||| cause }

/-- Changes the monitor. -/
def modMonitor (p : Part) (f : Monitor → Monitor) : Part := { p with monitor := f p.monitor }

/-- Changes the engine record. -/
def modEngine (p : Part) (f : Engine → Engine) : Part := { p with engine := f p.engine }

/-! ## Counts the spec derives -/

/-- The steps held in the store (R1). -/
def storedSteps (p : Part) : Nat := (p.timelines.toList.map List.length).sum

/-- The free step slots (R1). -/
def freeSlots (p : Part) : Nat := Config.storeSlots - p.storedSteps

/-- The in-use count of a queue: the stored steps whose origin it is (R4). -/
def inUse (p : Part) (q : Fin 8) : Nat :=
  (p.timelines.toList.map fun tl => (tl.filter fun s => s.origin == q).length).sum

/-- The lowest-numbered free entry of the Outstanding Command Table (R52). -/
def freeEntry (p : Part) : Option (Fin 64) := (List.finRange 64).find? fun i => (p.entry i).isNone

/-- Whether the engine state is one in which the Posting Unit is posting (R169). -/
def isPosting (p : Part) : Bool :=
  match p.engine.state with
  | .running | .halting | .halted => true
  | .off | .loading | .fatal => false

/-- The waiting completions of a completion queue: those in the write list (R149, R153). -/
def waitingCompletions (p : Part) (n : Fin 4) : Nat :=
  (p.posting.writeList.filter fun i => match i with
    | .completion m _ => m == n
    | .notice _ => false).length

/-- The queued notices: those in the write list (R160). -/
def queuedNotices (p : Part) : Nat :=
  (p.posting.writeList.filter fun i => match i with
    | .completion _ _ => false
    | .notice _ => true).length

end Part

/-- Tail less head, modulo the ring size (R125, R149, R160). -/
def ringDistance (size head tail : Nat) : Nat := (tail + size - head) % size

/-- An index advanced by one, returning to 0 after size - 1 (section 1.6). -/
def nextIndex (size i : Nat) : Nat := if i + 1 = size then 0 else i + 1

/-- The entries not yet consumed (R149). -/
def CompletionContext.occupied (q : CompletionContext) : Nat := ringDistance q.size q.head q.tail

/-- The notices not yet consumed (R160). -/
def NoticeRing.occupied (r : NoticeRing) : Nat := ringDistance r.size r.head r.tail

/-- The records waiting to be fetched (R125). -/
def QueueContext.waiting (q : QueueContext) : Nat := ringDistance q.size q.head q.tail

namespace Part

/-- A credit of a completion queue is free while reserved credits plus waiting completions plus the occupied count is
less than size - 1 (R151). -/
def creditFree (p : Part) (n : Fin 4) : Bool :=
  (p.cq n).reserved + p.waitingCompletions n + (p.cq n).occupied < (p.cq n).size - 1

/-- The ring has room for a notice (R160). -/
def noticeRoom (p : Part) : Bool := p.posting.ring.occupied + p.queuedNotices < p.posting.ring.size - 1

end Part

/-! ## Memory Access Monitor -/

/-- Whether one window covers every byte of an access and holds the permission of its kind (R173). -/
def MemoryWindow.allows (w : MemoryWindow) (write : Bool) (address length : Nat) : Bool :=
  decide (0 < w.length) && decide (w.base ≤ address) && decide (address + length ≤ w.base + w.length) &&
    (if write then w.allowWrite else w.allowRead)

/-- R173: at least one window allows the access, and it does not pass the end of the address space. -/
def Monitor.allows (m : Monitor) (write : Bool) (address length : Nat) : Bool :=
  decide (address + length ≤ addressSpace) && m.windows.toList.any fun w => w.allows write address length

/-- The limit of an access checked against the table, in ticks (R176). -/
def Monitor.limit (m : Monitor) : Nat := m.timeout * 16

/-- How an issued access can fail, and how a checked one can be refused (R178). -/
inductive AccessFault where
  | violation | timeout | busError
  deriving DecidableEq, Repr

/-- The aux of an ACCESS FAULT completion (section 12.4). -/
def AccessFault.aux : AccessFault → Nat
  | .violation => 1
  | .timeout => 2
  | .busError => 3

/-- The reason of a queue's entry to ERROR on a fetch fault (R137). -/
def AccessFault.queueReason : AccessFault → QueueErrorReason
  | .violation => .fetchViolation
  | .timeout => .fetchTimeout
  | .busError => .fetchBusError

/-- The reason of a posting fault (R167). -/
def AccessFault.fatalReason : AccessFault → FatalRing → FatalReason
  | .violation, .cq _ => .completionWriteViolation
  | .timeout, .cq _ => .completionWriteTimeout
  | .busError, .cq _ => .completionWriteBusError
  | .violation, .noticeRing => .noticeWriteViolation
  | .timeout, .noticeRing => .noticeWriteTimeout
  | .busError, .noticeRing => .noticeWriteBusError

namespace Part

/-! ## Posting (R153, R154, R161, R162) -/

/-- Issues a posting write: in flight if the windows allow it, else a posting fault on its way to Engine Control
(R154, R162, R167, R173). -/
def issueWrite (p : Part) (purpose : AccessPurpose) (ring : FatalRing) (address : Nat) (data : List Byte) : Part :=
  if p.monitor.allows true address data.length then
    p.modMonitor fun m => { m with
      posting := some { purpose := purpose, address := address, length := data.length, timer := 0, limit := m.limit,
                        data := data } }
  else p.modPosting fun u => { u with fault := some (AccessFault.fatalReason .violation ring, ring) }

/-- R154: the write of a completion goes to the entry at its queue's tail, with the queue's phase. -/
def issueCompletion (p : Part) (n : Fin 4) (c : Completion) : Part :=
  p.issueWrite (.completionWrite n) (.cq n) ((p.cq n).base + 16 * (p.cq n).tail) (completionBytes c (p.cq n).phase)

/-- R162: the write of a notice goes to the entry at the ring's tail; it takes the sequence number, the lost count and
the phase, after which the number rises by one and the lost count is 0. -/
def issueNotice (p : Part) (n : Notice) : Part :=
  let r := p.posting.ring
  let p := p.modPosting fun u => { u with
    taken := some (r.sequence, r.lost)
    ring := { u.ring with sequence := (r.sequence + 1) % 2 ^ 32, lost := 0 } }
  p.issueWrite .noticeWrite .noticeRing (r.base + 32 * r.tail) (noticeBytes n r.sequence r.lost r.phase)

/-- R153: the oldest item of the write list is issued when no write is in flight, unless the Posting Unit is not
posting or has met a posting fault. -/
def issueNext (p : Part) : Part :=
  if p.isPosting && p.posting.fault.isNone && p.monitor.posting.isNone then
    match p.posting.writeList with
    | [] => p
    | .completion n c :: _ => p.issueCompletion n c
    | .notice n :: _ => p.issueNotice n
  else p

/-- An item joins the write list (R153). -/
def joinWriteList (p : Part) (i : Item) : Part :=
  (p.modPosting fun u => { u with writeList := u.writeList ++ [i] }).issueNext

/-- A credit reserved in a completion queue is returned (R152). -/
def returnCredit (p : Part) (n : Fin 4) : Part := p.modCq n fun q => { q with reserved := q.reserved - 1 }

/-- A completion is handed over for completion queue n: its credit passes from the reserved credits to the waiting
completions (R151). While the Posting Unit is not posting it is discarded without effect on any count (R169). -/
def handCompletion (p : Part) (n : Fin 4) (c : Completion) : Part :=
  if p.isPosting then (p.returnCredit n).joinWriteList (.completion n c) else p

/-- A notice is handed over: discarded, written, pending or lost (R161). -/
def handNotice (p : Part) (n : Notice) : Part :=
  if !p.isPosting || !p.posting.ring.enabled then p
  else if p.posting.ring.pending.isEmpty && p.noticeRoom then p.joinWriteList (.notice n)
  else if p.posting.ring.pending.length < Config.pendingLimit then
    p.modRing fun r => { r with pending := r.pending ++ [n] }
  else p.modRing fun r => { r with lost := if r.lost < Config.lostLimit then r.lost + 1 else r.lost }

/-- A notice with the present time as its time. -/
def notify (p : Part) (body : NoticeBody) : Part := p.handNotice { time := p.now, body := body }

/-- R163: pending notices move to the write list, oldest first, while the ring has room. -/
def movePending : Nat → Part → Part
  | 0, p => p
  | fuel + 1, p =>
    match p.posting.ring.pending with
    | [] => p
    | n :: rest =>
      if p.noticeRoom then movePending fuel ((p.modRing fun r => { r with pending := rest }).joinWriteList (.notice n))
      else p

/-- A command's completion is handed over with the present time as its value (R139, R141). -/
def complete (p : Part) (q : Fin 8) (h : Header) (status : Status) (aux : Nat) : Part :=
  p.handCompletion (p.queue q).cq
    { queue := q, id := h.id, status := status, aux := aux, drops := 0, value := p.now }

/-- A command's completion is handed over with a value of its own. -/
def completeWith (p : Part) (q : Fin 8) (h : Header) (aux : Nat) (value : Nat) : Part :=
  p.handCompletion (p.queue q).cq
    { queue := q, id := h.id, status := .ok, aux := aux, drops := 0, value := value }

/-! ## Completion Tracker (R54 to R56) -/

end Part

/-- R55: the final status of a deferred command. -/
def TableEntry.status (e : TableEntry) : Status :=
  if e.executed = e.total then (if e.late then .late else .ok)
  else if e.executed = 0 then .abandoned
  else .partially

/-- R54: an entry after one report. -/
def TableEntry.report (e : TableEntry) (outcome : StepOutcome) (time : Nat) : TableEntry :=
  match outcome with
  | .executed => { e with remaining := e.remaining - 1, executed := e.executed + 1, lastTime := time }
  | .dropped cause => { e with remaining := e.remaining - 1, drops := e.drops ||| cause.mask, lastTime := time }

/-- R56: the completion of a deferred command. -/
def TableEntry.completion (e : TableEntry) : Completion :=
  { queue := e.queue, id := e.id, status := e.status, aux := e.executed, drops := e.drops, value := e.lastTime }

namespace Part

/-- The report that a step left the store, at the present time (R23, R54). An entry whose remaining count reaches 0 is
completed and freed in the same event (R56). -/
def resolve (p : Part) (outcome : StepOutcome) (s : Step) : Part :=
  match s.link with
  | none => p
  | some i =>
    match p.entry i with
    | none => p
    | some e =>
      let e := e.report outcome p.now
      if e.remaining = 0 then (p.setEntry i none).handCompletion e.cq e.completion
      else p.setEntry i (some e)

/-- Several steps left the store with one outcome, in order (R23). -/
def resolveAll (p : Part) (outcome : StepOutcome) (steps : List Step) : Part :=
  steps.foldl (fun p s => p.resolve outcome s) p

/-! ## Step Scheduler (R27) -/

/-- Drops the steps of a channel that satisfy `which`, with a cause, in timeline order (R27). -/
def dropWhere (p : Part) (which : Step → Bool) (cause : DropCause) (c : Fin 32) : Part :=
  let tl := p.timeline c
  (p.setTimeline c (tl.filter fun s => !which s)).resolveAll (.dropped cause) (tl.filter which)

/-- Drops steps on several channels, channel by channel (R27). -/
def dropOn (p : Part) (channels : List (Fin 32)) (which : Step → Bool) (cause : DropCause) : Part :=
  channels.foldl (fun p c => p.dropWhere which cause c) p

/-- How many steps on several channels satisfy `which`. -/
def countOn (p : Part) (channels : List (Fin 32)) (which : Step → Bool) : Nat :=
  (channels.map fun c => ((p.timeline c).filter which).length).sum

/-- R28: the store is emptied, with no drop cause and no report. -/
def emptyStore (p : Part) : Part := { p with timelines := Vector.replicate 32 [] }

/-- R62: the Outstanding Command Table is emptied. -/
def emptyTable (p : Part) : Part := { p with table := Vector.replicate 64 none }

/-! ## Output Stage -/

/-- Forces a channel (R31). -/
def forceChannel (p : Part) (reason : ForceReason) (c : Fin 32) : Part :=
  p.modChannel c fun ch => { ch with force := some reason }

/-- Unforces a channel, if it is forced for this reason (R31). -/
def unforceChannel (p : Part) (reason : ForceReason) (c : Fin 32) : Part :=
  p.modChannel c fun ch => if ch.force = some reason then { ch with force := none } else ch

/-- A pair with its two channels. -/
def pairView (p : Part) (k : Fin 16) : PairView :=
  { lower := p.channel (channelOf k .lower), upper := p.channel (channelOf k .upper), pair := p.pair k }

/-- Puts a pair and its two channels back. -/
def setPairView (p : Part) (k : Fin 16) (v : PairView) : Part :=
  ((p.modChannel (channelOf k .lower) fun _ => v.lower).modChannel (channelOf k .upper) fun _ => v.upper).modPair k
    fun _ => v.pair

/-- The domain a channel is a member of (R66). -/
def domainOf (p : Part) (c : Fin 32) : Option (Fin 8) :=
  (List.finRange 8).find? fun d => (p.domain d).members.getLsbD c.val

end Part

/-- A domain whose progress part for a channel, as this entry or as an immediate member, becomes DONE (R76). -/
def Domain.markDone (d : Domain) (c : Fin 32) (entry : Option Nat) : Domain :=
  { d with progress := d.progress.map fun x =>
      if x.channel = c ∧ x.entry = entry then { x with state := .done } else x }

/-- A domain whose progress part for a channel, if it is not DONE, becomes WAITING ON PARTNER (R74, R75). -/
def Domain.markWaiting (d : Domain) (c : Fin 32) (entry : Option Nat) : Domain :=
  { d with progress := d.progress.map fun x =>
      if x.channel = c ∧ x.entry = entry ∧ x.state ≠ .done then { x with state := .waitingOnPartner } else x }

/-- Whether every progress part is DONE (R76). -/
def Domain.allDone (d : Domain) : Bool := d.progress.all fun x => x.state == .done

namespace Part

/-- The Output Stage's reports of applied DOMAIN SAFE requests reach the Domain Unit (R42, R76). -/
def noteReports (p : Part) (k : Fin 16) (reports : List SafeReport) : Part :=
  reports.foldl (fun p r => p.modDomain r.domain fun d => d.markDone (channelOf k r.side) r.entry) p

/-- R76: a TRIPPING domain all of whose parts are DONE enters TRIPPED, and its DOMAIN SAFE notice is handed over. -/
def checkSafe (p : Part) (d : Fin 8) : Part :=
  let dom := p.domain d
  if dom.state = .tripping ∧ dom.allDone then
    (p.modDomain d fun x => { x with state := .tripped }).notify (.domainSafe d dom.causes dom.tripTime)
  else p

/-- The domains named by reports are looked at for their last part (R76). -/
def checkReported (p : Part) (reports : List SafeReport) : Part := reports.foldl (fun p r => p.checkSafe r.domain) p

/-- A batch for pair k is taken by the guard at the present time; the reports are noted. -/
def batch (p : Part) (k : Fin 16) (lower upper : Option Request) : Part × GuardResult :=
  let r := (p.pairView k).batch p.now lower upper
  ((p.setPairView k r.view).noteReports k r.reports, r)

/-- A batch of non-scheduled requests for pair k, after which reported domains may enter TRIPPED. -/
def requestBatch (p : Part) (k : Fin 16) (lower upper : Option Request) : Part :=
  let (p, r) := p.batch k lower upper
  p.checkReported r.reports

/-- A request for one channel as a batch of one part, after which reported domains may enter TRIPPED. -/
def requestOne (p : Part) (c : Fin 32) (r : Request) : Part :=
  match sideOf c with
  | .lower => p.requestBatch (pairOf c) (some r) none
  | .upper => p.requestBatch (pairOf c) none (some r)

/-- A non-scheduled request for the safe level of each channel of the list, one batch per pair, pairs in ascending
order (R30, R43, R50). -/
def requestSafe (p : Part) (channels : List (Fin 32)) (kind : WaitKind) : Part :=
  (List.finRange 16).foldl (fun p k =>
    let part (side : Side) : Option Request :=
      if channels.contains (channelOf k side) then
        some { level := (p.channel (channelOf k side)).safe, kind := .nonScheduled kind }
      else none
    p.requestBatch k (part .lower) (part .upper)) p

end Part

end Sys2Proof.Machine
end

