-- ==== Sys2Proof/Machine/Trip.lean ====
section
/-!
DEFINITION. Trip sources and the trip (sections 5.3, 5.4), and the contention event that may cause one (section 3.3.1).
-/

namespace Sys2Proof.Machine

/-- The member channels of a domain, in ascending order. -/
def Domain.memberList (d : Domain) : List (Fin 32) := (List.finRange 32).filter fun c => d.members.getLsbD c.val

/-- Whether a channel is named in the safe sequence (R65). -/
def Domain.isSequenced (d : Domain) (c : Fin 32) : Bool := d.sequence.any fun e => e.channel == c

/-- The immediate members: members not named in the safe sequence (R65). -/
def Domain.immediateList (d : Domain) : List (Fin 32) := d.memberList.filter fun c => !d.isSequenced c

/-- Whether a domain selects a cause as a trip source; SOFTWARE, HALT and ENGINE FAULT need no selection (R69). -/
def Domain.selects (d : Domain) : Cause → Bool
  | .input n => d.sources.getLsbD n.val
  | .clock => d.sources.getLsbD 16
  | .contention => d.sources.getLsbD 17
  | .software | .halt | .engineFault => true

/-- The cause set holding one cause (section 12.4). -/
def Cause.mask (c : Cause) : BitVec 21 := 1#21 <<< c.number.val

/-- Whether a cause is latched. -/
def Domain.hasCause (d : Domain) (c : Cause) : Bool := d.causes.getLsbD c.number.val

/-- The safe-sequence entries with their numbers, from 1. -/
def numbered (sequence : List SequenceEntry) : List (Nat × SequenceEntry) :=
  sequence.zipIdx.map fun x => (x.2 + 1, x.1)

/-- The progress parts of a trip, all PENDING (R71). -/
def Domain.initialProgress (d : Domain) : List ProgressPart :=
  (numbered d.sequence).map (fun x => { channel := x.2.channel, entry := some x.1, state := .pending }) ++
    d.immediateList.map fun c => { channel := c, entry := none, state := .pending }

/-- A domain entering TRIPPING (R71). A CONTENTION pulse that waited for this trip waits no longer (R78). -/
def Domain.trip (d : Domain) (cause : Cause) (t : Nat) : Domain :=
  { d with state := .tripping, tripTime := t, causes := cause.mask, progress := d.initialProgress, contentionWaits := false }

namespace Part

/-- R71: each member is forced, and its waiting request discarded. -/
def forceMembers (p : Part) (members : List (Fin 32)) : Part :=
  members.foldl (fun p c => (p.forceChannel .domain c).modChannel c fun ch => { ch with waiting := none }) p

/-- A DOMAIN SAFE request for a channel's safe level (R74, R75). -/
def safeRequest (p : Part) (d : Fin 8) (entry : Option Nat) (c : Fin 32) : Request :=
  { level := (p.channel c).safe, kind := .nonScheduled (.domainSafe d entry) }

/-- R74: one batch of immediate requests at a pair; a request that was not applied is WAITING ON PARTNER. -/
def immediateBatch (p : Part) (d : Fin 8) (k : Fin 16) (channels : List (Fin 32)) : Part :=
  let lo := channelOf k .lower
  let up := channelOf k .upper
  let hasLo := channels.contains lo
  let hasUp := channels.contains up
  if hasLo || hasUp then
    let (p, _) := p.batch k (if hasLo then some (p.safeRequest d none lo) else none)
      (if hasUp then some (p.safeRequest d none up) else none)
    let p := if hasLo then p.modDomain d fun x => x.markWaiting lo none else p
    if hasUp then p.modDomain d fun x => x.markWaiting up none else p
  else p

/-- R74: the immediate members are driven, pair by pair in ascending order. -/
def driveImmediate (p : Part) (d : Fin 8) (channels : List (Fin 32)) : Part :=
  (List.finRange 16).foldl (fun p k => p.immediateBatch d k channels) p

/-- R75: one safe-sequence entry is made, as a batch of one part; it is then DONE or WAITING ON PARTNER. -/
def makeEntry (p : Part) (d : Fin 8) (number : Nat) (c : Fin 32) : Part :=
  let request := p.safeRequest d (some number) c
  let (p, _) :=
    match sideOf c with
    | .lower => p.batch (pairOf c) (some request) none
    | .upper => p.batch (pairOf c) none (some request)
  p.modDomain d fun x => x.markWaiting c (some number)

/-- R75: the entries with offset 0 are made within the trip, in entry order. -/
def makeZeroEntries (p : Part) (d : Fin 8) (sequence : List SequenceEntry) : Part :=
  (numbered sequence).foldl (fun p x => if x.2.offset = 0 then p.makeEntry d x.1 x.2.channel else p) p

/-- The trip of domain d by a cause (R71 to R77): the members are forced, their steps discarded or held, the immediate
members and the entries with offset 0 driven, DOMAIN TRIPPED handed over, and DOMAIN SAFE if every part is DONE. -/
def trip (p : Part) (d : Fin 8) (cause : Cause) : Part :=
  let dom := p.domain d
  let members := dom.memberList
  let p := (p.modDomain d fun x => x.trip cause p.now).forceMembers members
  let stored := p.countOn members fun _ => true
  let p := if dom.disposition = .discard then p.dropOn members (fun _ => true) .discarded else p
  let p := (p.driveImmediate d dom.immediateList).makeZeroEntries d dom.sequence
  let discarded := if dom.disposition = .discard then stored else 0
  let held := if dom.disposition = .hold then stored else 0
  (p.notify (.domainTripped d cause dom.disposition (p.domain d).notDone dom.members discarded held)).checkSafe d

/-- R70: a cause reaching a TRIPPING or TRIPPED domain is added, with a notice, if it is new. -/
def addCause (p : Part) (d : Fin 8) (cause : Cause) : Part :=
  let dom := p.domain d
  if dom.hasCause cause then p
  else
    (p.modDomain d fun x => { x with causes := x.causes ||| cause.mask }).notify
      (.domainCauseAdded d cause dom.state (dom.causes ||| cause.mask))

/-- R78: an ARMED domain trips, and then the CONTENTION pulse that waited behind the trip reaches it: a cause added, if the
domain selects it. DESIGN CHOICE (log 21): the notice of the added cause is handed over right after the trip's own notices, and
so, where TRIP DOMAIN made the trip, before that command's completion. -/
def tripArmed (p : Part) (d : Fin 8) (cause : Cause) : Part :=
  let dom := p.domain d
  if dom.contentionWaits && dom.selects .contention then (p.trip d cause).addCause d .contention else p.trip d cause

/-- A trip source is offered to domain d (R69, R70). HALT and ENGINE FAULT are offered to ARMED domains alone. -/
def offer (p : Part) (cause : Cause) (d : Fin 8) : Part :=
  let dom := p.domain d
  if dom.selects cause then
    match dom.state with
    | .disarmed => p
    | .armed => p.tripArmed d cause
    | .tripping | .tripped => if cause = .halt ∨ cause = .engineFault then p else p.addCause d cause
  else p

/-- The domains that an offer of a source concerns: those that select it and are not DISARMED (R69). -/
def concerned (p : Part) (cause : Cause) : List (Fin 8) :=
  (List.finRange 8).filter fun d => (p.domain d).selects cause && (p.domain d).state != .disarmed

/-- Some domains in the order in which one event's offers reach them: with more than one, a free value (log 5). -/
def inOfferOrder (index : Nat) (domains : List (Fin 8)) : List (Fin 8) :=
  match domains with
  | [] => []
  | [d] => [d]
  | _ => (Config.offerOrder index).dedup.filter domains.contains ++
      domains.filter fun d => !(Config.offerOrder index).contains d

/-- A trip source is offered to every domain that selects it; a DISARMED one ignores it (R69, R97, R112, R189). -/
def offerAll (p : Part) (cause : Cause) : Part :=
  (inOfferOrder p.freeIndex (p.concerned cause)).foldl (fun p d => p.offer cause d) { p with freeIndex := p.freeIndex + 1 }

/-- The CONTENTION pulse is offered to domain d (R41, R69). Where a trip of the ARMED domain falls at the same time value and is
yet to be taken, the pulse reaches the domain after that trip, and waits for it (R78; log 21). -/
def pulse (p : Part) (tripWaits : Bool) (d : Fin 8) : Part :=
  if tripWaits && (p.domain d).state == .armed then p.modDomain d fun x => { x with contentionWaits := true }
  else p.offer .contention d

/-- The contention event of a batch (R41): the notice, then the CONTENTION pulse to the domain of the pair's channels. -/
def contention (p : Part) (k : Fin 16) (lower upper : Option Request) (r : GuardResult) (dropped : Nat)
    (tripWaits : Bool) : Part :=
  let loRef := r.lower == some .blocked
  let upRef := r.upper == some .blocked
  let p := p.notify (.pairContention k loRef upRef
    (if loRef then lower.map Request.level else none) (if upRef then upper.map Request.level else none)
    (if upRef then some r.view.lower.level else none) (if loRef then some r.view.upper.level else none) dropped)
  match p.domainOf (channelOf k .lower) with
  | none => p
  | some d => if p.domainOf (channelOf k .upper) = some d then p.pulse tripWaits d else p

/-- A CONTENTION pulse still waiting as the time value ends finds no other trip taken, and reaches its domain (R41, R69;
log 21). -/
def endWait (p : Part) (d : Fin 8) : Part :=
  if (p.domain d).contentionWaits then
    (p.offer .contention d).modDomain d fun x => { x with contentionWaits := false }
  else p

/-- The domains to which a CONTENTION pulse is on its way. -/
def awaiting (p : Part) : List (Fin 8) := (List.finRange 8).filter fun d => (p.domain d).contentionWaits

/-- The waiting pulses of every domain, in an order that the spec leaves open: with more than one, a free value (logs 5 and
21). -/
def endWaits (p : Part) : Part :=
  if p.awaiting.isEmpty then p
  else (inOfferOrder p.freeIndex p.awaiting).foldl endWait { p with freeIndex := p.freeIndex + 1 }

end Part

end Sys2Proof.Machine
end

