-- ==== Sys2Proof/Machine/EngineOps.lean ====
section
/-!
DEFINITION. What Engine Control does to the other blocks: taking over channels, entry to FATAL, the end of a HALT, the
two resets, and the frame in which every command's effect is one event.
-/

namespace Sys2Proof.Machine

namespace Part

/-- The channels Engine Control takes over at HALT and at FATAL: those in no domain or in a DISARMED domain (R189 part 6,
R192 part 4). -/
def takenOver (p : Part) : List (Fin 32) :=
  (List.finRange 32).filter fun c =>
    match p.domainOf c with
    | none => true
    | some d => (p.domain d).state == .disarmed

/-- R43: the channels taken over are FORCED(ENGINE) and get an ENGINE FORCE request for their safe levels. -/
def takeOver (p : Part) : Part :=
  let channels := p.takenOver
  (channels.foldl (fun p c => p.forceChannel .engine c) p).requestSafe channels .engineForce

/-- The command path with its read marked discarded (R138, R147). -/
def discardPath : CommandPath → CommandPath
  | .free => .free
  | .fetch q _ => .fetch q true
  | .list q h _ => .list q h true

/-- R168: the Posting Unit at entry to FATAL. The tails, heads, phases, sequence number, lost count, causes and enables
keep their values. -/
def stopPosting (u : Posting) : Posting :=
  { u with
    writeList := []
    taken := none
    fault := none
    ring := { u.ring with pending := [] }
    cqs := u.cqs.map fun q => { q with reserved := 0, timer := none } }

/-- R192: entry to FATAL on a posting fault, its five parts in order. -/
def enterFatal (p : Part) (reason : FatalReason) (ring : FatalRing) : Part :=
  let p := p.modEngine fun e => { e with state := .fatal }
  let p := (p.modCommand fun u => { u with path := discardPath u.path }).modPosting stopPosting
  let p := p.emptyStore.emptyTable
  let p := (p.offerAll .engineFault).takeOver
  (p.modEngine fun e => { e with fatalReason := some reason, fatalRing := some ring }).setCause engineCause

/-- The Posting Unit is drained: write list empty, no write in flight, pending list empty (R169). -/
def drained (p : Part) : Bool :=
  p.posting.writeList.isEmpty && p.monitor.posting.isNone && p.posting.ring.pending.isEmpty

/-- No domain is TRIPPING. -/
def noneTripping (p : Part) : Bool := p.domains.toList.all fun d => d.state != .tripping

/-- The four conditions of R190. The offers of part 5 of a HALT are taken within the HALT, so the second always holds. -/
def haltComplete (p : Part) : Bool := p.noneTripping && p.drained && p.command.path == .free

/-- R190: the engine leaves HALTING for HALTED, and ENGINE is set. -/
def checkHalted (p : Part) : Part :=
  if p.engine.state = .halting ∧ p.haltComplete then
    (p.modEngine fun e => { e with state := .halted }).setCause engineCause
  else p

/-- The posting fault met in the event, if one was, takes the engine to FATAL (R167, R192; log 4). -/
def checkFault (p : Part) : Part :=
  match p.posting.fault with
  | none => p
  | some (reason, ring) => p.enterFatal reason ring

/-- What Engine Control does at the end of every event: a posting fault, then the end of a HALT. -/
def settle (p : Part) : Part := p.checkFault.checkHalted

/-! ## Soft reset (R194) -/

/-- R148, after soft reset: the configuration parts are kept. -/
def softResetQueue (q : QueueContext) : QueueContext :=
  { q with state := .disabled, head := 0, tail := 0, hold := none }

/-- R170, after soft reset: ring base, size, threshold and holdoff are kept. -/
def softResetCq (q : CompletionContext) : CompletionContext :=
  { q with enabled := false, head := 0, tail := 0, phase := true, reserved := 0, unsignalled := 0, timer := none }

/-- R170, after soft reset: ring base and size are kept. -/
def softResetRing (r : NoticeRing) : NoticeRing :=
  { NoticeRing.reset with base := r.base, size := r.size }

/-- R170, after soft reset. -/
def softResetPosting (u : Posting) : Posting :=
  { Posting.reset with cqs := u.cqs.map softResetCq, ring := softResetRing u.ring }

/-- R148, after soft reset. -/
def softResetCommand (u : CommandUnit) : CommandUnit :=
  { CommandUnit.reset with queues := u.queues.map softResetQueue }

/-- R50: the waiting request is discarded and the channel SCHEDULED; the safe level is kept. -/
def softResetChannel (c : Channel) : Channel := { c with force := none, waiting := none }

/-- R194, parts 1 to 4 and 6, and the first half of part 5: everything but the RESET requests. The timebase, its source
and the detector are kept (R124), and so are safe levels, pairs (R50) and the configuration base (R180). -/
def softResetBlocks (p : Part) : Part :=
  { p with
    engine := { Engine.reset with configBase := p.engine.configBase }
    monitor := Monitor.reset
    command := softResetCommand p.command
    posting := softResetPosting p.posting
    timelines := Vector.replicate 32 []
    table := Vector.replicate 64 none
    domains := Vector.replicate 8 Domain.reset
    inputs := Vector.replicate 16 FaultInput.reset
    clock := { p.clock with supervisor := Supervisor.reset }
    output := { p.output with channels := p.output.channels.map softResetChannel } }

/-- R194: an accepted SOFT RESET. -/
def softReset (p : Part) : Part := p.softResetBlocks.requestSafe (List.finRange 32) .reset

/-- R181: every block at its hard-reset values, with RESETn asserted. The model's own counter `freeIndex` is kept (log 5). -/
def hardReset (p : Part) : Part :=
  { Part.reset with resetAsserted := true, freeIndex := p.freeIndex }

end Part

/-- One event of the part: while RESETn is asserted nothing is taken (R181); an event that cannot occur in this state
(`none`) changes nothing (log 2); otherwise its effect, and what Engine Control does at its end. -/
def event (f : Part → Option Part) (s : State) : Host.Outcome State Fault Refusal :=
  if s.part.resetAsserted then .next s
  else
    match f s.part with
    | none => .next s
    | some p => .next { s with part := p.settle }

end Sys2Proof.Machine
end

