-- ==== Sys2Proof/Machine/Admission.lean ====
section
/-!
DEFINITION. Admission of the scheduling commands (section 2.4): the seven checks in order, and admission of the whole
command.
-/

namespace Sys2Proof.Machine

/-- Flag bit 0 (section 12.3). -/
def completeOnExecution (h : Header) : Bool := h.flags.getLsbD 0

/-- Flag bit 1. -/
def refuseLate (h : Header) : Bool := h.flags.getLsbD 1

/-- Flag bit 2. -/
def isRelative (h : Header) : Bool := h.flags.getLsbD 2

/-- What a requested step does, raw: an action code, or the repeat fields of R3. -/
inductive RawBody where
  | single (action : Nat)
  | repeating (levelA levelB afterA afterB cycles : Nat)
  deriving DecidableEq, Repr

/-- A step as a scheduling command asks for it. -/
structure RawStep where
  channel : Nat
  tag     : BitVec 16
  offset  : Nat
  body    : RawBody
  deriving DecidableEq, Repr

/-- A step entry as a requested step. -/
def rawOfEntry (e : StepEntry) : RawStep :=
  { channel := e.channel.toNat, tag := e.tag, offset := e.offset.toNat, body := .single e.action.toNat }

/-- The one step of SCHEDULE REPEATING (R16). -/
def rawOfRepeating (b : RepeatingBody) : RawStep :=
  { channel := b.channel.toNat, tag := b.tag, offset := b.offset.toNat,
    body := .repeating b.levelA.toNat b.levelB.toNat b.intervalAfterA.toNat b.intervalAfterB.toNat b.cycleCount.toNat }

/-- R6: the due time of a step, its offset added to the base time and, under RELATIVE, to the admission time. -/
def dueTime (h : Header) (admission : Nat) (r : RawStep) : Nat :=
  r.offset + h.time.toNat + (if isRelative h then admission else 0)

/-- R9: the action or repeat fields, and the time of the last transition of a repeating step. -/
def RawStep.bodyValid (r : RawStep) (start : Nat) : Bool :=
  match r.body with
  | .single action => (Action.ofCode action).isSome
  | .repeating a b afterA afterB cycles =>
    (Level.ofCode a).isSome && (Level.ofCode b).isSome && a != b && 1 ≤ afterA && 1 ≤ afterB && 1 ≤ cycles &&
      start + cycles * afterA + (cycles - 1) * afterB ≤ maxTime

/-- Check 2 (R9), for one step. -/
def RawStep.valid (h : Header) (admission : Nat) (r : RawStep) : Bool :=
  r.channel < 32 && dueTime h admission r ≤ maxTime && r.bodyValid (max (dueTime h admission r) admission)

/-- The number, from 1, of the first step that fails a test. -/
def firstFailing (test : RawStep → Bool) (steps : List RawStep) : Option Nat :=
  (steps.findIdx? fun r => !test r).map (· + 1)

/-- The channel of a requested step that passed check 2. -/
def RawStep.chan (r : RawStep) : Fin 32 := Fin.ofNat 32 r.channel

/-- What a valid requested step does once admitted (R13, R16). -/
def RawStep.stepBody (r : RawStep) : StepBody :=
  match r.body with
  | .single action => .single ((Action.ofCode action).getD .mark)
  | .repeating a b afterA afterB cycles =>
    .repeating { levelA := (Level.ofCode a).getD .float, levelB := (Level.ofCode b).getD .float, afterA := afterA,
                 afterB := afterB, cycles := cycles, next := .a }

/-- R11: a step is late when its due time is before the admission time. -/
def RawStep.isLate (h : Header) (admission : Nat) (r : RawStep) : Bool := dueTime h admission r < admission

/-- The record of an admitted step (R13). -/
def RawStep.admitted (h : Header) (admission : Nat) (q : Fin 8) (link : Option (Fin 64)) (r : RawStep) : Step :=
  { effective := max (dueTime h admission r) admission, body := r.stepBody, tag := r.tag, origin := q, link := link,
    late := r.isLate h admission }

namespace Part

/-- Check 3 (R10): the step's channel is in the queue's channel mask. -/
def maskAllows (p : Part) (q : Fin 8) (c : Fin 32) : Bool := (p.queue q).mask.getLsbD c.val

/-- The room available to a queue (R12). -/
def room (p : Part) (q : Fin 8) : Nat := min p.freeSlots ((p.queue q).quota - p.inUse q)

/-- Check 6 (R12): room in the pool and in the quota for n steps. -/
def hasRoom (p : Part) (q : Fin 8) (n : Nat) : Bool := n ≤ p.freeSlots && p.inUse q + n ≤ (p.queue q).quota

/-- Check 7 (R12): a free table entry, if the command asks for one. -/
def hasTracking (p : Part) (h : Header) : Bool := !completeOnExecution h || p.freeEntry.isSome

/-- Checks 2 to 7 in order (R7): the refusal, or none when the command is to be admitted. The admission time is the
present time. -/
def admissionRefusal (p : Part) (q : Fin 8) (h : Header) (steps : List RawStep) : Option (Status × Nat) :=
  match firstFailing (fun r => r.valid h p.now) steps with
  | some n => some (.badField, n)
  | none =>
  match firstFailing (fun r => p.maskAllows q r.chan) steps with
  | some n => some (.noAuthority, n)
  | none =>
  match firstFailing (fun r => (p.channel r.chan).force.isNone) steps with
  | some n => some (.forced, n)
  | none =>
  match (if refuseLate h then firstFailing (fun r => !r.isLate h p.now) steps else none) with
  | some n => some (.tooLate, n)
  | none =>
  if !p.hasRoom q steps.length then some (.noSpace, p.room q)
  else if !p.hasTracking h then some (.noTracking, 0)
  else none

/-- R13: places the admitted steps, in step-number order. -/
def placeAdmitted (p : Part) (q : Fin 8) (h : Header) (link : Option (Fin 64)) (steps : List RawStep) : Part :=
  steps.foldl (fun p r => p.setTimeline r.chan (placeStep (r.admitted h p.now q link) (p.timeline r.chan))) p

/-- R52: the entry allocated to an admitted deferred command. -/
def newEntry (p : Part) (q : Fin 8) (h : Header) (steps : List RawStep) : TableEntry :=
  { queue := q, id := h.id, cq := (p.queue q).cq, total := steps.length, executed := 0,
    late := steps.any fun r => r.isLate h p.now, drops := 0, remaining := steps.length, lastTime := p.now }

/-- R13: admission of the whole command. Without COMPLETE ON EXECUTION the completion is handed over at once. -/
def admission (p : Part) (q : Fin 8) (h : Header) (steps : List RawStep) : Part :=
  let late := steps.any fun r => r.isLate h p.now
  match (if completeOnExecution h then p.freeEntry else none) with
  | some i => (p.placeAdmitted q h (some i) steps).setEntry i (some (p.newEntry q h steps))
  | none => (p.placeAdmitted q h none steps).complete q h (if late then .late else .ok) steps.length

/-- R18, R143: a refused command is parked. -/
def park (p : Part) (q : Fin 8) (held : Held) : Part :=
  p.modQueue q fun x => { x with state := .holding, hold := some held }

/-- R18: whether a refusal is parked: NO SPACE or NO TRACKING on a hold-when-full queue, but not a NO SPACE of a command
with more steps than the queue's quota. -/
def parks (p : Part) (q : Fin 8) (status : Status) (n : Nat) : Bool :=
  (p.queue q).holdWhenFull &&
    ((status == .noSpace && n ≤ (p.queue q).quota) || status == .noTracking)

end Part

/-- The requested steps of the two kinds that may be parked (R15, R16). -/
def inlineSteps : Command → List RawStep
  | .schedule b => (b.entries.take b.stepCount.toNat).map rawOfEntry
  | .scheduleRepeating b => [rawOfRepeating b]
  | _ => []

/-- Check 1 for SCHEDULE: 1 to 5 step entries (R8). -/
def scheduleCountValid (b : ScheduleBody) : Bool := 1 ≤ b.stepCount.toNat && b.stepCount.toNat ≤ 5

/-- Check 1 for the two single-record kinds (R8): SCHEDULE REPEATING carries exactly one step. -/
def countValid : Command → Bool
  | .schedule b => scheduleCountValid b
  | _ => true

namespace Part

/-- The checks of a SCHEDULE or SCHEDULE REPEATING, check 1 first (R7, R8). -/
def inlineRefusal (p : Part) (q : Fin 8) (h : Header) (cmd : Command) : Option (Status × Nat) :=
  if countValid cmd then p.admissionRefusal q h (inlineSteps cmd) else some (.badField, 0)

/-- SCHEDULE and SCHEDULE REPEATING as they arrive: admitted, parked or refused (R13, R14, R18). -/
def scheduleInline (p : Part) (q : Fin 8) (h : Header) (cmd : Command) : Part :=
  match p.inlineRefusal q h cmd with
  | none => p.admission q h (inlineSteps cmd)
  | some (status, aux) =>
    if p.parks q status (inlineSteps cmd).length then
      p.park q { header := h, command := cmd, status := status, aux := aux }
    else p.complete q h status aux

/-- R19: a held command is retry-ready. -/
def retryReady (p : Part) (q : Fin 8) (held : Held) : Bool :=
  p.hasRoom q (inlineSteps held.command).length && p.hasTracking held.header

/-- R143: the queue leaves HOLDING for ACTIVE with its hold slot empty. -/
def unpark (p : Part) (q : Fin 8) : Part := p.modQueue q fun x => { x with state := .active, hold := none }

/-- R19, R143: the retry of a held command. -/
def retry (p : Part) (q : Fin 8) (held : Held) : Part :=
  match p.inlineRefusal q held.header held.command with
  | none => (p.unpark q).admission q held.header (inlineSteps held.command)
  | some (status, aux) =>
    if status = .noSpace ∨ status = .noTracking then
      p.modQueue q fun x => { x with hold := some { held with status := status, aux := aux } }
    else (p.unpark q).complete q held.header status aux

/-- The admission of an arrived step list (R17): never parked. -/
def admitList (p : Part) (q : Fin 8) (h : Header) (steps : List RawStep) : Part :=
  match p.admissionRefusal q h steps with
  | none => p.admission q h steps
  | some (status, aux) => p.complete q h status aux

end Part

end Sys2Proof.Machine
end

