-- ==== Sys2Proof/Machine/Channels.lean ====
section
/-!
DEFINITION. What the Output Stage does with the commands it owns (section 3.4), and the dead-time expiry (R40).
-/

namespace Sys2Proof.Machine

/-- The other channel of a channel's pair (R32). -/
def partnerOf (c : Fin 32) : Fin 32 := channelOf (pairOf c) (sideOf c).other

namespace Part

/-- The checks of CONFIGURE CHANNEL (R44). -/
def configureChannelRefusal (p : Part) (q : Fin 8) (b : ChannelBody) : Option (Status × Nat) :=
  if 32 ≤ b.channel.toNat then some (.badField, 1)
  else
    let c := Fin.ofNat 32 b.channel.toNat
    let ch := p.channel c
    let partner := p.channel (partnerOf c)
    let pair := p.pair (pairOf c)
    match Level.ofCode b.safeLevel.toNat, IdleLevel.ofCode b.idleLevel.toNat with
    | some safe, some idle =>
      if !p.maskAllows q c then some (.noAuthority, c.val)
      else if ch.force.isSome then some (.forced, c.val)
      else if !(p.timeline c).isEmpty then some (.wrongState, 1)
      else if pair.isActive safe && pair.isActive partner.safe then some (.badField, 3)
      else
        match idle with
        | .keep => none
        | .level l =>
          if pair.isActive l && (pair.isActive partner.level || (p.pairView (pairOf c)).waitingActive (sideOf c).other) then
            some (.wrongState, 2)
          else none
    | _, _ => some (.badField, 2)

/-- The idle level of an accepted CONFIGURE CHANNEL is requested as a batch of one part, unless it is KEEP (R45). -/
def requestIdle (p : Part) (c : Fin 32) (idle : IdleLevel) : Part :=
  match idle with
  | .keep => p
  | .level l => p.requestOne c { level := l, kind := .nonScheduled .idle }

/-- The value of an accepted CONFIGURE CHANNEL: when the idle level was or will be applied (R45). -/
def idleTime (p : Part) (c : Fin 32) (idle : IdleLevel) : Nat :=
  match idle with
  | .keep => p.now
  | .level _ => if (p.channel c).waiting.isSome then (p.pair (pairOf c)).deadTimeEnd else p.now

/-- CONFIGURE CHANNEL (R44, R45). -/
def configureChannel (p : Part) (q : Fin 8) (h : Header) (b : ChannelBody) : Part :=
  match p.configureChannelRefusal q b with
  | some (status, aux) => p.complete q h status aux
  | none =>
    let c := Fin.ofNat 32 b.channel.toNat
    let safe := (Level.ofCode b.safeLevel.toNat).getD .float
    let idle := (IdleLevel.ofCode b.idleLevel.toNat).getD .keep
    let p := (p.modChannel c fun ch => { ch with safe := safe }).requestIdle c idle
    p.completeWith q h 0 (p.idleTime c idle)

/-- The checks of CONFIGURE PAIR (R46). -/
def configurePairRefusal (p : Part) (q : Fin 8) (b : PairBody) : Option (Status × Nat) :=
  if 16 ≤ b.pair.toNat then some (.badField, 1)
  else
    let k := Fin.ofNat 16 b.pair.toNat
    let lo := channelOf k .lower
    let up := channelOf k .upper
    match Polarity.ofCode b.polarity.toNat with
    | none => some (.badField, 2)
    | some polarity =>
      if 1023 < b.deadTime.toNat then some (.badField, 2)
      else if !p.maskAllows q lo then some (.noAuthority, lo.val)
      else if !p.maskAllows q up then some (.noAuthority, up.val)
      else if !(p.timeline lo).isEmpty || !(p.timeline up).isEmpty then some (.wrongState, 1)
      else if (p.channel lo).force.isSome || (p.channel up).force.isSome then some (.wrongState, 2)
      else if (p.channel lo).waiting.isSome || (p.channel up).waiting.isSome then some (.wrongState, 3)
      else if !b.enable.getLsbD 0 then none
      else if (p.channel lo).level == polarity.activeLevel && (p.channel up).level == polarity.activeLevel then
        some (.wrongState, 4)
      else if (p.channel lo).safe == polarity.activeLevel && (p.channel up).safe == polarity.activeLevel then
        some (.badField, 3)
      else if p.domainOf lo ≠ p.domainOf up then some (.badField, 4)
      else none

/-- The pair record an accepted CONFIGURE PAIR leaves (R47). -/
def configuredPair (p : Part) (k : Fin 16) (b : PairBody) : Pair :=
  let old := p.pair k
  let new : Pair :=
    { enabled := b.enable.getLsbD 0, polarity := (Polarity.ofCode b.polarity.toNat).getD .activeHigh,
      deadTime := b.deadTime.toNat, deadTimeEnd := p.now }
  let left (c : Fin 32) : Bool := old.isActive (p.channel c).level && !new.isActive (p.channel c).level
  if left (channelOf k .lower) || left (channelOf k .upper) then
    { new with deadTimeEnd := satAdd p.now new.deadTime }
  else new

/-- CONFIGURE PAIR (R46, R47). -/
def configurePair (p : Part) (q : Fin 8) (h : Header) (b : PairBody) : Part :=
  match p.configurePairRefusal q b with
  | some (status, aux) => p.complete q h status aux
  | none =>
    let k := Fin.ofNat 16 b.pair.toNat
    let new := p.configuredPair k b
    (p.modPair k fun _ => new).completeWith q h 0 new.deadTimeEnd

/-- What QUERY CHANNEL reports as the force reason: 1 for ENGINE; while the channel is SCHEDULED a free value (R48,
log 6). -/
def reasonBit (p : Part) (c : Fin 32) : Bool :=
  match (p.channel c).force with
  | some r => r == .engine
  | none => Config.freeBit p.freeIndex

/-- The effective time of the timeline's head, or 2^64-1 when it is empty (R48). -/
def headValue (p : Part) (c : Fin 32) : Nat :=
  match p.timeline c with
  | [] => maxTime
  | s :: _ => s.effective

/-- QUERY CHANNEL (R48). -/
def queryChannel (p : Part) (q : Fin 8) (h : Header) (channel : BitVec 8) : Part :=
  if 32 ≤ channel.toNat then p.complete q h .badField 1
  else
    let c := Fin.ofNat 32 channel.toNat
    if !p.maskAllows q c then p.complete q h .noAuthority c.val
    else
      ({ p with freeIndex := p.freeIndex + 1 } : Part).completeWith q h
        (channelAux (p.channel c) (p.pair (pairOf c)) (p.timeline c).length (p.reasonBit c)) (p.headValue c)

/-- DEAD TIME EXPIRY: taken when the timebase has reached the pair's dead-time end while a waiting request is present
(R40). -/
def deadTimeExpiry (k : Fin 16) (p : Part) : Option Part :=
  let v := p.pairView k
  if (v.lower.waiting.isSome || v.upper.waiting.isSome) && v.pair.deadTimeEnd ≤ p.now then
    let (v', reports) := v.expire
    some (((p.setPairView k v').noteReports k reports).checkReported reports)
  else none

end Part

end Sys2Proof.Machine
end

