-- ==== Sys2Proof/Machine/Domains.lean ====
section
/-!
DEFINITION. What the Domain Unit does with its seven commands (sections 5.6, 5.7), and the due safe-sequence entry.
-/

namespace Sys2Proof.Machine

/-- The active condition of a fault input (R92, R95, R96). -/
def FaultInput.active (i : FaultInput) : Bool :=
  i.enabled &&
    match i.mode with
    | .level => i.filtered
    | .latched => i.latch

/-- The clock condition is active while the supervisor is FAILED (R112). -/
def Clock.condition (c : Clock) : Bool := c.supervisor.state == .failed

/-- The number, from 1, of the first entry that fails a test on the entry and the one before it (R87). -/
def firstBadEntry (test : Nat → Bool) (count : Nat) : Option Nat :=
  ((List.range count).find? fun n => !test n).map (· + 1)

namespace Part

/-- R67: the first active source a domain selects: inputs 0 to 15, then CLOCK as 16. Momentary sources are never
active. -/
def firstActiveSource (p : Part) (d : Domain) : Option Nat :=
  match (List.finRange 16).find? fun n => d.sources.getLsbD n.val && (p.input n).active with
  | some n => some n.val
  | none => if d.sources.getLsbD 16 && p.clock.condition then some 16 else none

/-- The checks of CONFIGURE DOMAIN (R86). -/
def configureDomainRefusal (p : Part) (q : Fin 8) (b : DomainBody) : Option (Status × Nat) :=
  if 8 ≤ b.domain.toNat then some (.badField, 1)
  else if (Disposition.ofCode b.disposition.toNat).isNone || 2 ^ 18 ≤ b.sources.toNat then some (.badField, 2)
  else
    let d := Fin.ofNat 8 b.domain.toNat
    let member (c : Fin 32) : Bool := b.members.getLsbD c.val
    if (p.domain d).state ≠ .disarmed then some (.wrongState, 0)
    else
      match (List.finRange 32).find? fun c => member c && !p.maskAllows q c with
      | some c => some (.noAuthority, c.val)
      | none =>
        if (List.finRange 8).any fun e => e != d && (p.domain e).members &&& b.members != 0 then some (.badField, 3)
        else if (List.finRange 16).any fun k =>
            (p.pair k).enabled && member (channelOf k .lower) != member (channelOf k .upper) then some (.badField, 4)
        else none

/-- CONFIGURE DOMAIN (R86). -/
def configureDomain (p : Part) (q : Fin 8) (h : Header) (b : DomainBody) : Part :=
  match p.configureDomainRefusal q b with
  | some (status, aux) => p.complete q h status aux
  | none =>
    (p.modDomain (Fin.ofNat 8 b.domain.toNat) fun d => { d with
      members := b.members, sources := b.sources.setWidth 18,
      disposition := (Disposition.ofCode b.disposition.toNat).getD .discard, sequence := [], causes := 0,
      progress := [] }).complete q h .ok 0

/-- The checks of LOAD SAFE SEQUENCE (R87). -/
def loadSafeSequenceRefusal (p : Part) (b : SequenceBody) : Option (Status × Nat) :=
  if 8 ≤ b.domain.toNat then some (.badField, 1)
  else
    let dom := p.domain (Fin.ofNat 8 b.domain.toNat)
    let entries := b.entries.take b.entryCount.toNat
    let channelAt (n : Nat) : Nat := (entries[n]?.map fun e => e.channel.toNat).getD 0
    let offsetAt (n : Nat) : Nat := (entries[n]?.map fun e => e.offset.toNat).getD 0
    if dom.state ≠ .disarmed then some (.wrongState, 0)
    else if 8 < b.entryCount.toNat then some (.badField, 0)
    else
      match firstBadEntry (fun n => channelAt n < 32 && dom.members.getLsbD (channelAt n)) entries.length with
      | some n => some (.badField, n)
      | none =>
      match firstBadEntry (fun n => offsetAt n ≤ 1048575) entries.length with
      | some n => some (.badField, n)
      | none =>
      match firstBadEntry (fun n => (List.range n).all fun m => channelAt m != channelAt n) entries.length with
      | some n => some (.badField, n)
      | none =>
      match firstBadEntry (fun n => n == 0 || offsetAt (n - 1) ≤ offsetAt n) entries.length with
      | some n => some (.badField, n)
      | none => none

/-- The safe sequence an accepted LOAD SAFE SEQUENCE loads (R87). -/
def loadedSequence (b : SequenceBody) : List SequenceEntry :=
  (b.entries.take b.entryCount.toNat).map fun e =>
    { channel := Fin.ofNat 32 e.channel.toNat, offset := e.offset.toNat }

/-- LOAD SAFE SEQUENCE (R87). -/
def loadSafeSequence (p : Part) (q : Fin 8) (h : Header) (b : SequenceBody) : Part :=
  match p.loadSafeSequenceRefusal b with
  | some (status, aux) => p.complete q h status aux
  | none =>
    (p.modDomain (Fin.ofNat 8 b.domain.toNat) fun d => { d with sequence := loadedSequence b }).complete q h .ok 0

/-- ARM DOMAIN (R88). -/
def armDomain (p : Part) (q : Fin 8) (h : Header) (domain : BitVec 8) : Part :=
  if 8 ≤ domain.toNat then p.complete q h .badField 1
  else
    let d := Fin.ofNat 8 domain.toNat
    let dom := p.domain d
    if dom.state ≠ .disarmed then p.complete q h .wrongState 0
    else if dom.members = 0 then p.complete q h .badField 2
    else
      match p.firstActiveSource dom with
      | some n => p.complete q h .sourceActive n
      | none => (p.modDomain d fun x => { x with state := .armed, causes := 0 }).complete q h .ok 0

/-- DISARM DOMAIN (R89). A CONTENTION pulse still on its way to the domain is ignored by it, DISARMED (R70). -/
def disarmDomain (p : Part) (q : Fin 8) (h : Header) (domain : BitVec 8) : Part :=
  if 8 ≤ domain.toNat then p.complete q h .badField 1
  else
    let d := Fin.ofNat 8 domain.toNat
    match (p.domain d).state with
    | .disarmed => p.complete q h .ok 0
    | .armed => (p.modDomain d fun x => { x with state := .disarmed, contentionWaits := false }).complete q h .ok 0
    | .tripping | .tripped => p.complete q h .wrongState 0

/-- TRIP DOMAIN (R90). -/
def tripDomain (p : Part) (q : Fin 8) (h : Header) (domain : BitVec 8) : Part :=
  if 8 ≤ domain.toNat then p.complete q h .badField 1
  else
    let d := Fin.ofNat 8 domain.toNat
    let dom := p.domain d
    if dom.members &&& (p.queue q).mask = 0 then p.complete q h .noAuthority 0
    else if dom.state = .disarmed then p.complete q h .wrongState 0
    else
      let aux := if dom.state = .armed then 1 else 0
      let p := p.offer .software d
      p.completeWith q h aux (p.domain d).tripTime

/-- R81, part 1, for one member channel under HOLD: the held steps are dropped, carried forward or kept (R82, R83). -/
def releaseChannel (p : Part) (c : Fin 32) : Part :=
  let tl := p.timeline c
  (p.setTimeline c (releaseTimeline p.now tl)).resolveAll (.dropped .expired) (expiredAt p.now tl)

/-- How many of the steps held on the members have a fate at the release. -/
def fateCount (p : Part) (members : List (Fin 32)) (which : ReleaseFate → Bool) : Nat :=
  p.countOn members fun s => which (s.releaseFate p.now)

/-- Whether a fate is being carried forward. -/
def isCarried : ReleaseFate → Bool
  | .carried _ => true
  | _ => false

/-- R81: the parts of an accepted release, at release time r, in order. -/
def release (p : Part) (q : Fin 8) (h : Header) (d : Fin 8) : Part :=
  let dom := p.domain d
  let members := dom.memberList
  let hold := dom.disposition == .hold
  let expired := if hold then p.fateCount members (· == .expired) else 0
  let carried := if hold then p.fateCount members isCarried else 0
  let kept := if hold then p.fateCount members (· != .expired) else 0
  let p := if hold then members.foldl (fun p c => p.releaseChannel c) p else p
  let p := p.modDomain d fun x => { x with causes := 0, progress := [], state := .armed }
  let p := members.foldl (fun p c => p.unforceChannel .domain c) p
  (p.notify (.domainReleased d dom.causes kept carried expired)).complete q h .ok expired

/-- RELEASE DOMAIN (R80, R81). -/
def releaseDomain (p : Part) (q : Fin 8) (h : Header) (domain : BitVec 8) : Part :=
  if 8 ≤ domain.toNat then p.complete q h .badField 1
  else
    let d := Fin.ofNat 8 domain.toNat
    let dom := p.domain d
    if dom.state ≠ .tripped then p.complete q h .wrongState 0
    else
      match p.firstActiveSource dom with
      | some n => p.complete q h .sourceActive n
      | none => p.release q h d

/-- QUERY DOMAIN (R91). -/
def queryDomain (p : Part) (q : Fin 8) (h : Header) (domain : BitVec 8) : Part :=
  if 8 ≤ domain.toNat then p.complete q h .badField 1
  else
    let dom := p.domain (Fin.ofNat 8 domain.toNat)
    p.completeWith q h dom.aux dom.tripTime

/-- The progress of a numbered safe-sequence entry. -/
def entryProgress (d : Domain) (number : Nat) : Option Progress :=
  (d.progress.find? fun x => x.entry = some number).map ProgressPart.state

/-- SAFE SEQUENCE ENTRY DUE: taken at a TRIPPING domain when the timebase has reached the trip time plus the entry's
offset, for an entry that is PENDING while none before it is (R75). -/
def safeSequenceEntryDue (d : Fin 8) (number : Nat) (p : Part) : Option Part :=
  let dom := p.domain d
  match (numbered dom.sequence).find? fun x => x.1 == number with
  | none => none
  | some (_, e) =>
    if dom.state = .tripping ∧ entryProgress dom number = some .pending ∧
        (∀ m ∈ List.range number, entryProgress dom m ≠ some .pending) ∧ satAdd dom.tripTime e.offset ≤ p.now then
      some ((p.makeEntry d number e.channel).checkSafe d)
    else none

end Part

end Sys2Proof.Machine
end

