-- ==== Sys2Proof/Machine/Inputs.lean ====
section
/-!
DEFINITION. What the Fault Input Block does: its two commands and the sample event (chapter Fault Inputs).
-/

namespace Sys2Proof.Machine

/-- The sample a pin level gives under a polarity: active or inactive (R93). -/
def Polarity.sample (pol : Polarity) (pinHigh : Bool) : Bool :=
  match pol with
  | .activeHigh => pinHigh
  | .activeLow => !pinHigh

/-- The filter takes a sample (R94), and in LATCHED mode a filtered activation sets the latch (R96). The ticks since the
last sample start again from 0 (R93). -/
def FaultInput.take (i : FaultInput) (sample : Bool) : FaultInput :=
  if sample = i.filtered then { i with run := 0, spacing := 0 }
  else if i.run + 1 = i.filterCount then
    { i with filtered := sample, run := 0, spacing := 0,
             latch := i.latch || (i.mode == .latched && sample) }
  else { i with run := i.run + 1, spacing := 0 }

/-- The fields of CONFIGURE FAULT INPUT that have ranges (R99, check 2). -/
def inputFieldsValid (b : InputBody) : Bool :=
  (Polarity.ofCode b.polarity.toNat).isSome && (InputMode.ofCode b.mode.toNat).isSome &&
    [1, 8, 64, 512].contains b.sampleInterval.toNat && 1 ≤ b.filterCount.toNat && b.filterCount.toNat ≤ 15

/-- The record an accepted CONFIGURE FAULT INPUT leaves (R100). -/
def configuredInput (b : InputBody) : FaultInput :=
  { enabled := b.flags.getLsbD 0, polarity := (Polarity.ofCode b.polarity.toNat).getD .activeHigh,
    mode := (InputMode.ofCode b.mode.toNat).getD .level, interval := b.sampleInterval.toNat,
    filterCount := b.filterCount.toNat, report := b.flags.getLsbD 1, filtered := false, run := 0, latch := false,
    spacing := 0 }

namespace Part

/-- The lowest domain that is not DISARMED and whose source set holds a bit (R99 check 3, R119 check 6). -/
def servingDomain (p : Part) (source : Nat) : Option (Fin 8) :=
  (List.finRange 8).find? fun d => (p.domain d).sources.getLsbD source && (p.domain d).state != .disarmed

/-- The domains whose source sets hold an input, bit d for domain d (R98). -/
def selectingDomains (p : Part) (n : Fin 16) : BitVec 8 :=
  (List.finRange 8).foldl (fun m d => if (p.domain d).sources.getLsbD n.val then m ||| (1#8 <<< d.val) else m) 0

/-- CONFIGURE FAULT INPUT (R99, R100). -/
def configureFaultInput (p : Part) (q : Fin 8) (h : Header) (b : InputBody) : Part :=
  if 16 ≤ b.input.toNat then p.complete q h .badField 1
  else if !inputFieldsValid b then p.complete q h .badField 2
  else
    let n := Fin.ofNat 16 b.input.toNat
    match p.servingDomain n.val with
    | some d => p.complete q h .wrongState d.val
    | none => (p.modInput n fun _ => configuredInput b).complete q h .ok (p.input n).aux

/-- CLEAR FAULT LATCH (R102). -/
def clearFaultLatch (p : Part) (q : Fin 8) (h : Header) (input : BitVec 8) : Part :=
  if 16 ≤ input.toNat then p.complete q h .badField 1
  else
    let n := Fin.ofNat 16 input.toNat
    let i := p.input n
    if i.mode ≠ .latched then p.complete q h .wrongState 0
    else if i.filtered then p.complete q h .sourceActive n.val
    else (p.modInput n fun x => { x with latch := false }).complete q h .ok (bit i.latch)

/-- An activation (R97): the notice if the report flag is set, then the offers. -/
def activate (p : Part) (n : Fin 16) : Part :=
  let i := p.input n
  let p := if i.report then p.notify (.faultInputActive n i.mode i.filtered (p.selectingDomains n)) else p
  p.offerAll (.input n)

/-- SAMPLE EVENT: taken at an enabled input when its sample interval has been counted; the pin's level comes with it
(R93 to R97). -/
def sampleEvent (n : Fin 16) (pinHigh : Bool) (p : Part) : Option Part :=
  let i := p.input n
  if i.enabled && i.interval ≤ i.spacing then
    let i' := i.take (i.polarity.sample pinHigh)
    let p := p.modInput n fun _ => i'
    some (if i'.active && !i.active then p.activate n else p)
  else none

end Part

end Sys2Proof.Machine
end

