-- ==== Sys2Proof/Machine/Clocks.lean ====
section
/-!
DEFINITION. The timebase, the primary-stop detector and the supervisor (chapter Timebase and Clock Supervisor): their
events and the three clock commands.
-/

namespace Sys2Proof.Machine

/-- A supervisor waiting for an opening edge, the reference timer starting from 0 (R113). -/
def SupervisorWindow.awaiting : SupervisorWindow := { isOpen := false, edges := 0, ticks := 0, refTimer := 0 }

/-- A window just opened by a REF edge (R113). -/
def SupervisorWindow.opened : SupervisorWindow := { isOpen := true, edges := 0, ticks := 0, refTimer := 0 }

/-- The count of a window: the ticks since the opening edge, 0 if it has not opened (R110, R113). -/
def SupervisorWindow.count (w : SupervisorWindow) : Nat := if w.isOpen then w.ticks else 0

/-- Whether the supervisor is measuring windows. -/
def Supervisor.measures (s : Supervisor) : Bool := s.state == .settling || s.state == .measuring

/-- The verdict of a window that closed on its W-th REF edge (R114). -/
def Supervisor.closingVerdict (s : Supervisor) (count : Nat) : Verdict :=
  if s.upperLimit < count then .high else if count < s.lowerLimit then .low else .inRange

/-- R120, R121: the supervisor enters SETTLING with the counter at 0, waiting for an opening edge. -/
def Supervisor.settle (s : Supervisor) : Supervisor :=
  { s with state := .settling, bad := 0, window := some .awaiting }

/-- The checks 1 to 5 of CONFIGURE SUPERVISOR (R119): the aux of the first that fails. -/
def supervisorFieldError (b : SupervisorBody) : Option Nat :=
  if !(1 ≤ b.windowLength.toNat && b.windowLength.toNat ≤ 4096) then some 1
  else if !(1 ≤ b.lowerLimit.toNat && b.lowerLimit.toNat < 2 ^ 24 && 1 ≤ b.upperLimit.toNat &&
      b.upperLimit.toNat < 2 ^ 24 && b.lowerLimit.toNat ≤ b.upperLimit.toNat) then some 2
  else if !(1 ≤ b.failCount.toNat && b.failCount.toNat ≤ 15) then some 3
  else if !(1 ≤ b.referenceTimeout.toNat && b.referenceTimeout.toNat ≤ 2 ^ 24) then some 4
  else if (FailAction.ofCode b.failAction.toNat).isNone then some 5
  else none

/-- The record an accepted CONFIGURE SUPERVISOR leaves (R120). -/
def configuredSupervisor (b : SupervisorBody) : Supervisor :=
  let enabled := b.enable.getLsbD 0
  { state := if enabled then .settling else .disabled
    windowLength := b.windowLength.toNat, lowerLimit := b.lowerLimit.toNat, upperLimit := b.upperLimit.toNat,
    failCount := b.failCount.toNat, referenceTimeout := b.referenceTimeout.toNat,
    failAction := FailAction.ofCode b.failAction.toNat, bad := 0, verdict := none, lastCount := 0,
    window := if enabled then some .awaiting else none }

namespace Part

/-- The active source becomes another, with its notice, which carries the supervisor's state after the event (R107). -/
def switchSource (p : Part) (source : Source) (reason : SourceReason) (after : SupervisorState) : Part :=
  (p.modClock fun c => { c with source := source }).notify (.clockSourceChanged source reason after)

/-- The CLOCK FAILED notice of an entry to FAILED (R117). -/
def notifyFailed (p : Part) : Part :=
  let s := p.clock.supervisor
  p.notify (.clockFailed s.verdict s.bad p.clock.source s.lastCount)

/-- R116: entry to FAILED from the counter. -/
def failSupervisor (p : Part) : Part :=
  let p := (p.modSupervisor fun s => { s with state := .failed, window := none }).notifyFailed
  let p :=
    if p.clock.supervisor.failAction = some .switchToBackup ∧ p.clock.source = .primary then
      p.switchSource .backup .supervisorFailed .failed
    else p
  p.offerAll .clock

/-- A window ends with a verdict and a count; `next` is the window that follows (R114, R115). In SETTLING the verdict is
discarded. -/
def takeVerdict (p : Part) (v : Verdict) (count : Nat) (next : SupervisorWindow) : Part :=
  let s := p.clock.supervisor
  match s.state with
  | .settling => p.modSupervisor fun s => { s with state := .measuring, window := some next }
  | .measuring =>
    let bad := if v = .inRange then 0 else s.bad + 1
    let p := p.modSupervisor fun s =>
      { s with verdict := some v, lastCount := count, bad := bad, window := some next }
    if v ≠ .inRange ∧ bad = s.failCount then p.failSupervisor else p
  | .disabled | .failed => p

/-- The W-th REF edge closes the window, gives its verdict and opens the next (R113). -/
def closeWindow (p : Part) (w : SupervisorWindow) : Part :=
  p.takeVerdict (p.clock.supervisor.closingVerdict w.ticks) w.ticks .opened

/-- REF EDGE: opens a waiting window, or is counted by the open one, which its W-th edge closes; in DISABLED and FAILED it
is ignored (R113). -/
def refEdge (p : Part) : Option Part :=
  let s := p.clock.supervisor
  match s.window with
  | none => none
  | some w =>
    if !s.measures then none
    else if !w.isOpen then some (p.modSupervisor fun s => { s with window := some .opened })
    else if s.windowLength ≤ w.edges + 1 then some (p.closeWindow w)
    else some (p.modSupervisor fun s => { s with window := some { w with edges := w.edges + 1, refTimer := 0 } })

/-- WINDOW END: the closing edge of the window, the W-th after the opening one (R113, R114). -/
def windowEnd (p : Part) : Option Part :=
  let s := p.clock.supervisor
  match s.window with
  | none => none
  | some w => if s.measures && w.isOpen && s.windowLength ≤ w.edges + 1 then some (p.closeWindow w) else none

/-- REFERENCE TIMEOUT: taken when the reference timer has reached the reference timeout (R113). -/
def referenceTimeout (p : Part) : Option Part :=
  let s := p.clock.supervisor
  match s.window with
  | none => none
  | some w =>
    if s.measures && s.referenceTimeout ≤ w.refTimer then
      some (p.takeVerdict .noReference w.count .awaiting)
    else none

/-- R110: a primary-stop event reaches the supervisor. -/
def supervisorStopped (p : Part) : Part :=
  let s := p.clock.supervisor
  if s.measures then
    let count := (s.window.map SupervisorWindow.count).getD 0
    ((p.modSupervisor fun s =>
      { s with state := .failed, verdict := some .primaryStopped, lastCount := count, window := none }).notifyFailed).offerAll
        .clock
  else p

/-- The detector's count reaches 32: the primary present indication is absent (R108). -/
def detectorReached (p : Part) : Part :=
  p.modClock fun c => { c with primaryPresent := false, detectorCount := Config.detectorLimit }

/-- PRIMARY STOP: the count has reached 32 backup periods while PRIMARY is active (R108, R109). -/
def primaryStop (p : Part) : Option Part :=
  if p.clock.source = .primary ∧ Config.detectorLimit ≤ p.clock.detectorCount then
    let after := if p.clock.supervisor.measures then .failed else p.clock.supervisor.state
    some ((p.detectorReached.switchSource .backup .primaryStopped after).supervisorStopped)
  else none

/-- PRIMARY INDICATION ABSENT: the count has reached 32 backup periods while BACKUP is active; no primary-stop event (R108,
R109). -/
def primaryIndicationAbsent (p : Part) : Option Part :=
  if p.clock.source = .backup ∧ Config.detectorLimit ≤ p.clock.detectorCount then some p.detectorReached else none

/-- TCLK EDGE (R108). -/
def tclkEdge (p : Part) : Part := p.modClock fun c => { c with primaryPresent := true, detectorCount := 0 }

/-- CONFIGURE SUPERVISOR (R119, R120). -/
def configureSupervisor (p : Part) (q : Fin 8) (h : Header) (b : SupervisorBody) : Part :=
  match supervisorFieldError b with
  | some aux => p.complete q h .badField aux
  | none =>
    match p.servingDomain 16 with
    | some d => p.complete q h .wrongState d.val
    | none => (p.modSupervisor fun _ => configuredSupervisor b).complete q h .ok p.clock.beforeAux

/-- RESTORE PRIMARY CLOCK (R121). -/
def restorePrimaryClock (p : Part) (q : Fin 8) (h : Header) : Part :=
  let s := p.clock.supervisor
  if s.state ≠ .failed ∧ p.clock.source = .primary then p.complete q h .wrongState 0
  else if !p.clock.primaryPresent then p.complete q h .sourceActive 0
  else
    let aux := p.clock.beforeAux
    let after : SupervisorState := if s.state = .disabled then .disabled else .settling
    let p := if p.clock.source = .backup then p.switchSource .primary .restored after else p
    let p := if s.state = .disabled then p else p.modSupervisor Supervisor.settle
    p.complete q h .ok aux

/-- READ TIME (R123). -/
def readTime (p : Part) (q : Fin 8) (h : Header) : Part := p.complete q h .ok p.clock.aux

end Part

/-! ## The tick (R105, R106) -/

/-- A tick counted towards a limit, at which the count stays until the event of that limit is taken (log 14). -/
def countTo (limit n : Nat) : Nat := if n < limit then n + 1 else n

/-- R113: a tick of the window under way. -/
def Supervisor.tick (s : Supervisor) : Supervisor :=
  { s with window := s.window.map fun w => { w with
      ticks := if w.isOpen then countTo Config.countLimit w.ticks else w.ticks
      refTimer := countTo s.referenceTimeout w.refTimer } }

/-- The timebase counts, and is held at 2^64-1 (R105). While BACKUP is active a tick is a period of the backup oscillator (R105),
and the primary-stop detector of R108 counts it, up to 32 (DEDUCED, log 11). While PRIMARY is active a tick leaves the detector
alone (DESIGN CHOICE, unsafe, log 11). -/
def Clock.tick (c : Clock) : Clock :=
  { c with time := countTo maxTime c.time, supervisor := c.supervisor.tick
           detectorCount := if c.source = .backup then countTo Config.detectorLimit c.detectorCount else c.detectorCount }

/-- R108: one period of the backup oscillator while PRIMARY is active, which the detector counts, up to 32. The table has no row
for it: it is what a step does when no command waits (DESIGN CHOICE, logs 1 and 11). The oscillator does not run while RESETn is
asserted, and while BACKUP is active its periods are the ticks (R105). -/
def Part.backupPeriod (p : Part) : Part :=
  if !p.resetAsserted && p.clock.source == .primary then
    p.modClock fun c => { c with detectorCount := countTo Config.detectorLimit c.detectorCount }
  else p

/-- R93: a tick of the sample spacing of an enabled input. -/
def FaultInput.tick (i : FaultInput) : FaultInput :=
  if i.enabled then { i with spacing := countTo i.interval i.spacing } else i

/-- R159: a running holdoff timer counts down. -/
def CompletionContext.tick (q : CompletionContext) : CompletionContext := { q with timer := q.timer.map (· - 1) }

/-- R175: the timer of an access in flight. -/
def Access.tick (a : Access) : Access := { a with timer := countTo a.limit a.timer }

/-- R175. -/
def Monitor.tick (m : Monitor) : Monitor :=
  { m with command := m.command.map Access.tick, posting := m.posting.map Access.tick,
           block := m.block.map Access.tick }

/-- A tick of the active source advances the timebase and every interval counted in ticks (R105, R106). -/
def Part.tick (p : Part) : Part :=
  { p with clock := p.clock.tick, inputs := p.inputs.map FaultInput.tick,
           posting := { p.posting with cqs := p.posting.cqs.map CompletionContext.tick }, monitor := p.monitor.tick }

/-- TIMEBASE TICK: the time value ends, and with it the wait of a CONTENTION pulse, whose arrival is an event of its own
(log 21); then the tick. -/
def Part.timebaseTick (p : Part) : Part := p.endWaits.settle.tick

end Sys2Proof.Machine
end

