-- ==== Sys2Proof/Machine/Schedule.lean ====
section
/-!
DEFINITION. What the Step Scheduler does with the commands it owns (chapter Step Store and Channel Timelines), and the
due-time event.
-/

namespace Sys2Proof.Machine

/-- Check 1 for SCHEDULE LIST (R8): 1 to 256 entries, and a list address that is a multiple of 8. -/
def listCheck (b : ListBody) : Bool :=
  1 ≤ b.stepCount.toNat && b.stepCount.toNat ≤ 256 && b.listAddress.toNat % 8 == 0

namespace Part

/-- SCHEDULE LIST when the Command Unit passes it over (R17): check 1, then the read of its list, whose violation ends
the command ACCESS FAULT within the event. -/
def scheduleList (p : Part) (q : Fin 8) (h : Header) (b : ListBody) : Part :=
  let length := 8 * b.stepCount.toNat
  if !listCheck b then p.complete q h .badField 0
  else if p.monitor.allows false b.listAddress.toNat length then
    (p.modMonitor fun m => { m with
      command := some { purpose := .listRead, address := b.listAddress.toNat, length := length, timer := 0,
                        limit := m.limit, data := [] } }).setPath (.list q h false)
  else p.complete q h .accessFault AccessFault.violation.aux

/-- The steps a CANCEL TAG removes (R24). -/
def cancelTagSelects (q : Fin 8) (tag : BitVec 16) (s : Step) : Bool := s.origin == q && s.tag == tag

/-- CANCEL TAG (R24): every stored step of the issuing queue with the tag, on any channel. -/
def cancelTag (p : Part) (q : Fin 8) (h : Header) (tag : BitVec 16) : Part :=
  let channels := List.finRange 32
  let removed := p.countOn channels (cancelTagSelects q tag)
  (p.dropOn channels (cancelTagSelects q tag) .cancelled).completeWith q h 0 removed

/-- CANCEL CHANNEL (R25): every stored step on the channel at or after the from-time, from any queue. -/
def cancelChannel (p : Part) (q : Fin 8) (h : Header) (channel : BitVec 8) : Part :=
  if 32 ≤ channel.toNat then p.complete q h .badField 0
  else
    let c := Fin.ofNat 32 channel.toNat
    if !p.maskAllows q c then p.complete q h .noAuthority 0
    else
      let which : Step → Bool := fun s => h.time.toNat ≤ s.effective
      let removed := p.countOn [c] which
      (p.dropWhere which .cancelled c).completeWith q h 0 removed

/-! ## The due-time event (R20, R21) -/

/-- The effective time of a channel's head, if the channel is SCHEDULED. -/
def headTime (p : Part) (c : Fin 32) : Option Nat :=
  if (p.channel c).force.isNone then (p.timeline c).head?.map Step.effective else none

/-- The earlier of two heads, either of which may be absent. -/
def earlier : Option Nat → Option Nat → Option Nat
  | none, b => b
  | a, none => a
  | some a, some b => some (min a b)

/-- The time of the batch a due-time event of channel c would take: for an enabled pair the earlier of its two heads, for
any other channel its own head; only SCHEDULED channels count (R20). -/
def batchTime (p : Part) (c : Fin 32) : Option Nat :=
  if (p.pair (pairOf c)).enabled then
    earlier (p.headTime (channelOf (pairOf c) .lower)) (p.headTime (channelOf (pairOf c) .upper))
  else p.headTime c

/-- A channel's part of the batch of a due-time event of channel c at t: empty on a FORCED channel, and on the partner of a
channel that is not in an enabled pair (R20). -/
def partOf (p : Part) (c : Fin 32) (t : Nat) (side : Side) : List Step :=
  let ch := channelOf (pairOf c) side
  if (p.channel ch).force.isNone && ((p.pair (pairOf c)).enabled || ch == c) then batchAt t (p.timeline ch) else []

/-- The request of a channel's part: none for an empty part (R20). -/
def stepRequest (p : Part) (c : Fin 32) (part : List Step) : Option Request :=
  if part.isEmpty then none else some { level := finalLevel (p.channel c).level part, kind := .step }

/-- The Scheduler's action on one channel's part of the batch at t (R21, R58). -/
def actOn (p : Part) (c : Fin 32) (t : Nat) (answer : Option Answer) : Part :=
  match answer with
  | some .applied =>
    (p.setTimeline c (applyBatch t (p.timeline c))).resolveAll .executed (executedAt t (p.timeline c))
  | some .blocked => p.dropWhere (fun s => s.effective == t) .blocked c
  | some (.deferred d) => p.setTimeline c (deferBatch d (p.timeline c))
  | _ => p

/-- How many steps of the batch are dropped BLOCKED (R41). -/
def blockedCount (r : GuardResult) (lower upper : List Step) : Nat :=
  (if r.lower = some .blocked then lower.length else 0) + (if r.upper = some .blocked then upper.length else 0)

/-- A due-time event of channel c, for the batch at t: the guard answers, the Scheduler acts on each part, the lower
channel first, and a batch with a blocked part raises a contention event (R20, R21, R36, R41, R78). -/
def takeBatch (p : Part) (c : Fin 32) (t : Nat) (tripWaits : Bool) : Part :=
  let k := pairOf c
  let loPart := p.partOf c t .lower
  let upPart := p.partOf c t .upper
  let lo := p.stepRequest (channelOf k .lower) loPart
  let up := p.stepRequest (channelOf k .upper) upPart
  let (p, r) := p.batch k lo up
  let p := (p.actOn (channelOf k .lower) t r.lower).actOn (channelOf k .upper) t r.upper
  let p := if r.lower = some .blocked ∨ r.upper = some .blocked then
      p.contention k lo up r (blockedCount r loPart upPart) tripWaits
    else p
  p.checkReported r.reports

/-- DUE TIME EVENT: taken when the timebase has reached the time of the batch (R20). -/
def dueTimeEvent (c : Fin 32) (tripWaits : Bool) (p : Part) : Option Part :=
  match p.batchTime c with
  | none => none
  | some t => if t ≤ p.now then some (p.takeBatch c t tripWaits) else none

end Part

end Sys2Proof.Machine
end

