-- ==== Sys2Proof/Machine/Arrival.lean ====
section
/-!
DEFINITION. The arrival of a command record (R136): the end of the fetch, the common checks (section 8.6) and the
hand-over to the owning block (section 8.7); and the arrival of a step list (R17).
-/

namespace Sys2Proof.Machine

/-- The authority class a kind needs (R140), as its bit in the authority set: 0 CHANNEL, 1 DOMAIN, 2 FAULT, 3 CLOCK. -/
def authorityClass : Command → Option (Fin 4)
  | .configureChannel _ | .configurePair _ => some 0
  | .configureDomain _ | .loadSafeSequence _ | .armDomain _ | .disarmDomain _ | .releaseDomain _ => some 1
  | .configureFaultInput _ | .clearFaultLatch _ => some 2
  | .configureSupervisor _ | .restorePrimaryClock => some 3
  | .schedule _ | .scheduleRepeating _ | .scheduleList _ | .cancelTag _ | .cancelChannel _ | .queryChannel _
  | .tripDomain _ | .queryDomain _ | .readTime | .unknownKind _ => none

namespace Part

/-- The common checks (R139): kind, then authority, whose aux is the class missing, 1 CHANNEL to 4 CLOCK. -/
def commonRefusal (p : Part) (q : Fin 8) (cmd : Command) : Option (Status × Nat) :=
  match cmd with
  | .unknownKind kind => some (.badKind, kind.toNat)
  | _ =>
    match authorityClass cmd with
    | none => none
    | some cls => if (p.queue q).authority.getLsbD cls.val then none else some (.noAuthority, cls.val + 1)

/-- The hand-over to the owning block (section 8.7). -/
def owner (p : Part) (q : Fin 8) (h : Header) (cmd : Command) : Part :=
  match cmd with
  | .schedule _ => p.scheduleInline q h cmd
  | .scheduleRepeating _ => p.scheduleInline q h cmd
  | .scheduleList b => p.scheduleList q h b
  | .cancelTag tag => p.cancelTag q h tag
  | .cancelChannel channel => p.cancelChannel q h channel
  | .configureChannel b => p.configureChannel q h b
  | .configurePair b => p.configurePair q h b
  | .queryChannel channel => p.queryChannel q h channel
  | .configureDomain b => p.configureDomain q h b
  | .loadSafeSequence b => p.loadSafeSequence q h b
  | .armDomain domain => p.armDomain q h domain
  | .disarmDomain domain => p.disarmDomain q h domain
  | .tripDomain domain => p.tripDomain q h domain
  | .releaseDomain domain => p.releaseDomain q h domain
  | .queryDomain domain => p.queryDomain q h domain
  | .configureFaultInput b => p.configureFaultInput q h b
  | .clearFaultLatch input => p.clearFaultLatch q h input
  | .configureSupervisor b => p.configureSupervisor q h b
  | .restorePrimaryClock => p.restorePrimaryClock q h
  | .readTime => p.readTime q h
  | .unknownKind kind => p.complete q h .badKind kind.toNat

/-- An arrived command: the common checks, then its owning block (R139). -/
def process (p : Part) (q : Fin 8) (h : Header) (cmd : Command) : Part :=
  match p.commonRefusal q cmd with
  | some (status, aux) => p.complete q h status aux
  | none => p.owner q h cmd

/-- The read of the command path ends: the access is over and the path is free (R134). -/
def freePath (p : Part) : Part := (p.modMonitor fun m => { m with command := none }).setPath .free

/-- The queue's head advances by one (R136). -/
def advanceHead (p : Part) (q : Fin 8) : Part := p.modQueue q fun x => { x with head := nextIndex x.size x.head }

/-- The answer to the record fetch in flight arrives, bringing a command: a live fetch advances head and processes it
(R136); a discarded fetch returns its credit (R138). Without a record fetch in flight there is no such arrival. -/
def arrival (h : Header) (cmd : Command) (p : Part) : Option Part :=
  match p.command.path with
  | .fetch q discarded =>
    if discarded then some (p.freePath.returnCredit (p.queue q).cq)
    else some ((p.freePath.advanceHead q).process q h cmd)
  | _ => none

/-- RECORD ARRIVES: all 64 bytes of the record (R135, R175, R197). -/
def recordArrives (data : List Byte) (p : Part) : Option Part :=
  if data.length = 64 then p.arrival (readHeader data) (readCommand data) else none

/-- LIST ARRIVES: all the bytes of the step list in flight. Checks 2 to 7 are made at this time (R17); a discarded list is
dropped unexamined (R142). -/
def listArrives (data : List Byte) (p : Part) : Option Part :=
  match p.command.path, p.monitor.command with
  | .list q h discarded, some a =>
    if data.length = a.length then
      if discarded then some p.freePath
      else some (p.freePath.admitList q h ((readStepList data (a.length / 8)).map rawOfEntry))
    else none
  | _, _ => none

end Part

end Sys2Proof.Machine
end

