-- ==== Sys2Proof/Machine/Queues.lean ====
section
/-!
DEFINITION. The submission queues: tail notification and queue reset (section 8.3), the fetch arbiter (section 8.4), the
fetch and its faults (section 8.5), and queue errors (section 8.10).
-/

namespace Sys2Proof.Machine

namespace Part

/-- A NOTIFY write is rejected: nothing changes but the NOTIFY REJECTED cause (R129, R157, R182). -/
def rejectNotify (p : Part) : Part := p.setCause notifyRejectedCause

/-- A parked command leaves the hold slot without a retry, and is completed with its credit (R144). -/
def completeHeld (p : Part) (q : Fin 8) (held : Held) (status : Status) (aux : Nat) : Part :=
  (p.modQueue q fun x => { x with hold := none }).complete q held.header status aux

/-- A queue enters ERROR, and its QUEUE ERROR notice is handed over (R145 parts 3 and 4). -/
def queueError (p : Part) (q : Fin 8) (reason : QueueErrorReason) (index : Nat) (parked : Bool) : Part :=
  let x := p.queue q
  (p.modQueue q fun x => { x with state := .error }).notify (.queueError q reason x.head x.tail index parked)

/-- A live fetch of the queue is marked discarded (R130, R145). -/
def discardFetch (p : Part) (q : Fin 8) : Part :=
  match p.command.path with
  | .fetch r _ => if r = q then p.setPath (.fetch q true) else p
  | _ => p

/-- The parked command of the queue, if it has one, is completed with its last refusal (R144). -/
def completeParked (p : Part) (q : Fin 8) : Part :=
  match (p.queue q).hold with
  | none => p
  | some held => p.completeHeld q held held.status held.aux

/-- Whether POST TAIL and RESET QUEUE reach queue n: number at most 7, engine RUNNING, queue not DISABLED (R129). -/
def notifyReaches (p : Part) (target : BitVec 4) : Option (Fin 8) :=
  if h : target.toNat < 8 then
    if p.engine.state = .running ∧ (p.queue ⟨target.toNat, h⟩).state ≠ .disabled then some ⟨target.toNat, h⟩ else none
  else none

/-- POST TAIL (R128, R129, R145). -/
def postTail (target : BitVec 4) (index : BitVec 16) (p : Part) : Part :=
  match p.notifyReaches target with
  | none => p.rejectNotify
  | some q =>
    if (p.queue q).state = .error then p.rejectNotify
    else if index.toNat < (p.queue q).size then p.modQueue q fun x => { x with tail := index.toNat }
    else
      let parked := (p.queue q).hold.isSome
      ((p.completeParked q).discardFetch q).queueError q .badTail index.toNat parked

/-- RESET QUEUE (R129, R130). -/
def resetQueue (target : BitVec 4) (p : Part) : Part :=
  match p.notifyReaches target with
  | none => p.rejectNotify
  | some q =>
    ((p.completeParked q).discardFetch q).modQueue q fun x => { x with head := 0, tail := 0, state := .active }

/-! ## The fetch arbiter (R132, R133) -/

/-- Whether a queue is eligible for a grant (R132, conditions 2 and 3); the command path is free, so no fetch is in
flight. -/
def eligible (p : Part) (q : Fin 8) : Bool :=
  match (p.queue q).state, (p.queue q).hold with
  | .active, _ => (p.queue q).head != (p.queue q).tail && p.creditFree (p.queue q).cq
  | .holding, some held => p.retryReady q held
  | _, _ => false

/-- The queues in the order of a round robin: counting upward from the queue after the pointer (R133). -/
def robin (pointer : Fin 8) : List (Fin 8) := (List.finRange 8).map fun n => pointer + 1 + n

/-- The first eligible queue of a class after its pointer (R133). -/
def firstEligible (p : Part) (urgent : Bool) (pointer : Fin 8) : Option (Fin 8) :=
  (robin pointer).find? fun q => (p.queue q).urgent == urgent && p.eligible q

/-- The queue the arbiter grants, an URGENT one in preference (R133). -/
def granted (p : Part) : Option (Fin 8) :=
  match p.firstEligible true p.command.urgentPointer with
  | some q => some q
  | none => p.firstEligible false p.command.normalPointer

/-- The pointer of the granted queue's class becomes the granted queue (R133). -/
def movePointer (p : Part) (q : Fin 8) : Part :=
  p.modCommand fun u => if (p.queue q).urgent then { u with urgentPointer := q } else { u with normalPointer := q }

/-- A fetch that ends in a fault: the credit is returned and the queue enters ERROR, head not advanced (R137). -/
def fetchFault (p : Part) (q : Fin 8) (f : AccessFault) : Part :=
  (p.returnCredit (p.queue q).cq).queueError q f.queueReason 0 false

/-- A fetch is issued: a credit reserved, and the read of the record at head requested (R135). A violation ends it at
once (R137). -/
def issueFetch (p : Part) (q : Fin 8) : Part :=
  let x := p.queue q
  let address := x.base + 64 * x.head
  let p := p.modCq x.cq fun c => { c with reserved := c.reserved + 1 }
  if p.monitor.allows false address 64 then
    (p.modMonitor fun m => { m with
      command := some { purpose := .recordFetch, address := address, length := 64, timer := 0, limit := m.limit,
                        data := [] } }).setPath (.fetch q false)
  else p.fetchFault q .violation

/-- The granted queue's work: the retry of its parked command, or a fetch (R132, R134). -/
def grantTo (p : Part) (q : Fin 8) : Part :=
  let p := p.movePointer q
  match (p.queue q).state, (p.queue q).hold with
  | .holding, some held => p.retry q held
  | _, _ => p.issueFetch q

/-- FETCH GRANT: taken when the command path is free, the engine is RUNNING and a queue is eligible (R132). -/
def fetchGrant (p : Part) : Option Part :=
  if p.engine.state = .running ∧ p.command.path = .free then p.granted.map p.grantTo else none

/-! ## Faults of the command path's read (R137, R138, R142) -/

/-- A record fetch or a step list read ends in a timeout or a bus error. -/
def commandReadFault (p : Part) (f : AccessFault) : Part :=
  match p.command.path with
  | .free => p
  | .fetch q discarded =>
    if discarded then p.freePath.returnCredit (p.queue q).cq else p.freePath.fetchFault q f
  | .list q h discarded => if discarded then p.freePath else p.freePath.complete q h .accessFault f.aux

end Part

end Sys2Proof.Machine
end

