-- ==== Sys2Proof/Machine/PostingEvents.lean ====
section
/-!
DEFINITION. The Posting Unit's events: the ends of its writes (R154, R162, R167, R169), CONSUME (section 9.4), interrupt
coalescing (section 9.5), and the writes to INT CAUSE and INT ENABLE (R166).
-/

namespace Sys2Proof.Machine

/-- R154: a posted completion advances the tail, and the phase changes when the tail returns to 0. -/
def CompletionContext.posted (q : CompletionContext) : CompletionContext :=
  { q with tail := nextIndex q.size q.tail, phase := if nextIndex q.size q.tail = 0 then !q.phase else q.phase }

/-- R158: a posting raises the unsignalled count and starts a stopped holdoff timer; the count and the timer are cleared
when the count reaches the threshold. The Boolean says whether the cause is set. -/
def CompletionContext.coalesce (q : CompletionContext) : CompletionContext × Bool :=
  let count := q.unsignalled + 1
  if count = q.threshold then ({ q with unsignalled := 0, timer := none }, true)
  else
    ({ q with unsignalled := count
              timer := if 0 < q.holdoff ∧ q.timer.isNone then some (q.holdoff * 1024) else q.timer }, false)

/-- R162: a posted notice advances the tail of the notice ring. -/
def NoticeRing.posted (r : NoticeRing) : NoticeRing :=
  { r with tail := nextIndex r.size r.tail, phase := if nextIndex r.size r.tail = 0 then !r.phase else r.phase }

namespace Part

/-- The posting write is over at the monitor. -/
def endWrite (p : Part) : Part :=
  (p.modMonitor fun m => { m with posting := none }).modPosting fun u => { u with abandoned := false, taken := none }

/-- The item whose write has ended leaves the write list. -/
def popWriteList (p : Part) : Part := p.modPosting fun u => { u with writeList := u.writeList.tail }

/-- A completion of queue n is posted (R154) and counted for coalescing (R158). -/
def postCompletion (p : Part) (n : Fin 4) : Part :=
  let (q, signal) := (p.cq n).posted.coalesce
  let p := (p.popWriteList).modCq n fun _ => q
  if signal then p.setCause (cqCause n) else p

/-- A notice is posted, and NOTICE is set (R162, R165). -/
def postNotice (p : Part) : Part := (p.popWriteList.modRing NoticeRing.posted).setCause noticeCause

/-- COMPLETION WRITE ANSWERED: the completion is posted and the next item issued; the answer to an abandoned write is
dropped (R154, R169). -/
def completionWriteAnswered (p : Part) : Option Part :=
  match p.monitor.posting with
  | none => none
  | some a =>
    match a.purpose with
    | .completionWrite n =>
      if p.posting.abandoned then some p.endWrite.issueNext else some (p.endWrite.postCompletion n).issueNext
    | _ => none

/-- NOTICE WRITE ANSWERED (R162, R169). -/
def noticeWriteAnswered (p : Part) : Option Part :=
  match p.monitor.posting with
  | none => none
  | some a =>
    match a.purpose with
    | .noticeWrite =>
      if p.posting.abandoned then some p.endWrite.issueNext else some p.endWrite.postNotice.issueNext
    | _ => none

/-- The ring a posting write goes to. -/
def writtenRing : AccessPurpose → FatalRing
  | .completionWrite n => .cq n
  | _ => .noticeRing

/-- A posting write ends in a timeout or a bus error: a posting fault on its way to Engine Control (R167), or, for an
abandoned write, nothing (R169). -/
def writeFault (p : Part) (a : Access) (f : AccessFault) : Part :=
  if p.posting.abandoned then p.endWrite.issueNext
  else
    let ring := writtenRing a.purpose
    p.endWrite.modPosting fun u => { u with fault := some (f.fatalReason ring, ring) }

/-- HOLDOFF EXPIRY: taken when a running holdoff timer has reached 0 (R159). -/
def holdoffExpiry (n : Fin 4) (p : Part) : Option Part :=
  if (p.cq n).timer = some 0 then
    let p' := p.modCq n fun q => { q with timer := none, unsignalled := 0 }
    some (if 0 < (p.cq n).unsignalled then p'.setCause (cqCause n) else p')
  else none

/-- The engine states in which CONSUME is accepted (R157). -/
def consumeAccepted (p : Part) : Bool :=
  match p.engine.state with
  | .running | .halting | .halted => true
  | .off | .loading | .fatal => false

/-- CONSUME on completion queue n (R156, R157). -/
def consumeCq (p : Part) (n : Fin 4) (index : Nat) : Part :=
  let q := p.cq n
  if q.enabled && index < q.size && ringDistance q.size q.head index ≤ q.occupied then
    p.modCq n fun q => { q with head := index }
  else p.rejectNotify

/-- CONSUME on the notice ring: pending notices move to the write list (R156, R157, R163). -/
def consumeRing (p : Part) (index : Nat) : Part :=
  let r := p.posting.ring
  if r.enabled && index < r.size && ringDistance r.size r.head index ≤ r.occupied then
    movePending r.pending.length (p.modRing fun r => { r with head := index })
  else p.rejectNotify

/-- CONSUME: targets 0 to 3 name the completion queues and 8 the notice ring (R156, R157, R195). -/
def consume (target : BitVec 4) (index : BitVec 16) (p : Part) : Part :=
  if !p.consumeAccepted then p.rejectNotify
  else if h : target.toNat < 4 then p.consumeCq ⟨target.toNat, h⟩ index.toNat
  else if target.toNat = 8 then p.consumeRing index.toNat
  else p.rejectNotify

/-- A write to INT CAUSE acknowledges each cause written as one (R166). -/
def intCauseWrite (value : BitVec 32) (p : Part) : Part :=
  p.modPosting fun u => { u with causes := u.causes &&& ~~~(value.setWidth 7) }

/-- A write to INT ENABLE sets every enable (R166). -/
def intEnableWrite (value : BitVec 32) (p : Part) : Part :=
  p.modPosting fun u => { u with enables := value.setWidth 7 }

end Part

end Sys2Proof.Machine
end

