-- ==== Sys2Proof/Machine/Control.lean ====
section
/-!
DEFINITION. Engine Control (chapter Engine Control and Initialization): the CONTROL operations, the Configuration Block's
validation and load, the HALT, and the register window's writes.
-/

namespace Sys2Proof.Machine

/-! ## The Configuration Block (R186, R172, R196) -/

/-- A power of two from 8 up to a limit (tests 3 to 5). -/
def ringSizeValid (limit size : Nat) : Bool :=
  [8, 16, 32, 64, 128, 256, 512, 1024, 2048, 4096].contains size && size ≤ limit

/-- Test 3, for one queue: a disabled queue's fields are not tested. -/
def QueueEntry.ringValid (e : QueueEntry) : Bool :=
  !e.enabled || (ringSizeValid 4096 e.size && e.base % 64 == 0 && e.base + 64 * e.size ≤ addressSpace &&
    e.quota ≤ 1024 && e.priority ≤ 1)

/-- Test 4, for one completion queue. -/
def CompletionEntry.ringValid (e : CompletionEntry) : Bool :=
  !e.enabled || (ringSizeValid 4096 e.size && e.base % 16 == 0 && e.base + 16 * e.size ≤ addressSpace &&
    1 ≤ e.threshold && e.threshold ≤ 255)

/-- Test 5. -/
def Block.noticeValid (b : Block) : Bool :=
  !b.noticeEnabled ||
    (ringSizeValid 1024 b.noticeSize && b.noticeBase % 32 == 0 && b.noticeBase + 32 * b.noticeSize ≤ addressSpace)

/-- Test 6, for one queue: bound to an enabled completion queue; a byte above 3 names none (R196). -/
def Block.bindingValid (b : Block) (e : QueueEntry) : Bool :=
  !e.enabled || (if h : e.cq < 4 then b.cqs[e.cq].enabled else false)

/-- Test 7, for one window (R172): a window of length 0 is valid whatever else it holds. -/
def WindowEntry.valid (e : WindowEntry) : Bool :=
  e.length == 0 || (e.base % 4096 == 0 && e.length % 4096 == 0 && e.base + e.length ≤ addressSpace &&
    e.permissions &&& 0b11111100 == 0)

/-- The tests of R186 in order: the load fault of the first that fails, or NONE. -/
def Block.loadFault (b : Block) : LoadFault :=
  if b.magic ≠ Config.blockMagic then .badMagic
  else if b.version ≠ Config.blockVersion then .badVersion
  else if !(b.queues.toList.all QueueEntry.ringValid && b.cqs.toList.all CompletionEntry.ringValid && b.noticeValid) then
    .badRing
  else if !b.queues.toList.all b.bindingValid then .badBinding
  else if !(1 ≤ b.timeout && b.windows.toList.all WindowEntry.valid) then .badWindow
  else .none

/-- A submission queue context at START (R126). -/
def QueueEntry.context (e : QueueEntry) : QueueContext :=
  { enabled := e.enabled, base := e.base, size := e.size, cq := Fin.ofNat 4 e.cq, urgent := e.priority == 1,
    mask := e.mask, authority := e.authority, quota := e.quota, holdWhenFull := e.holdWhenFull, head := 0, tail := 0,
    state := if e.enabled then .active else .disabled, hold := none }

/-- A completion queue context at START (R150). -/
def CompletionEntry.context (e : CompletionEntry) : CompletionContext :=
  { enabled := e.enabled, base := e.base, size := e.size, threshold := e.threshold, holdoff := e.holdoff, tail := 0,
    head := 0, phase := true, reserved := 0, unsignalled := 0, timer := none }

/-- A window as loaded (R171). -/
def WindowEntry.window (e : WindowEntry) : MemoryWindow :=
  { base := e.base, length := e.length, allowRead := e.permissions.getLsbD 0, allowWrite := e.permissions.getLsbD 1 }

/-- The notice ring context at START (R160). -/
def Block.ring (b : Block) : NoticeRing :=
  { NoticeRing.reset with enabled := b.noticeEnabled, base := b.noticeBase, size := b.noticeSize }

namespace Part

/-- A refused CONTROL write changes nothing but the last refused operation (R183). -/
def refuseControl (p : Part) (operation : LastRefused) : Part := p.modEngine fun e => { e with lastRefused := operation }

/-! ## START and the load (R185 to R188) -/

/-- R169: at a START accepted in HALTED the unissued items and the pending notices are discarded, and a write in flight is
abandoned; the pair that an abandoned notice write took is kept for a load that fails. -/
def abandonPosting (p : Part) : Part :=
  let inFlight := p.monitor.posting.isSome && !p.posting.abandoned
  p.modPosting fun u => { u with
    writeList := []
    ring := { u.ring with pending := [] }
    abandoned := u.abandoned || inFlight
    restore := if inFlight then u.taken else none
    taken := none }

/-- The Configuration Block read at the configuration base, exempt from the window check (R174). -/
def requestBlock (p : Part) : Part :=
  p.modMonitor fun m => { m with
    block := some { purpose := .blockRead, address := p.engine.configBase.toNat, length := 384, timer := 0,
                    limit := Config.blockTimeout, data := [] } }

/-- Whether START is accepted (R183). -/
def startAccepted (p : Part) : Bool := p.engine.state == .off || p.engine.state == .halted

/-- START (R183, R185). -/
def controlStart (p : Part) : Part :=
  if p.startAccepted then
    let stopped := if p.engine.state = .halted then p.abandonPosting else p
    (stopped.modEngine fun e => { e with state := .loading, loadFault := .none, lastRefused := .none }).requestBlock
  else p.refuseControl .start

/-- The Configuration Block read is over. -/
def endBlockRead (p : Part) : Part := p.modMonitor fun m => { m with block := none }

/-- R169: after a failed load the sequence number and the losses that an abandoned notice write took are given back. -/
def giveBack (r : NoticeRing) : Option (Nat × Nat) → NoticeRing
  | none => r
  | some (sequence, lost) => { r with sequence := sequence, lost := min Config.lostLimit (r.lost + lost) }

/-- R188: a failed load. -/
def loadFailed (p : Part) (fault : LoadFault) : Part :=
  ((p.endBlockRead.modPosting fun u => { u with ring := giveBack u.ring u.restore, restore := none }).modEngine fun e =>
    { e with state := .halted, loadFault := fault }).setCause engineCause

/-- The channels forced by Engine Control are unforced (R187 part 4). -/
def unforceEngine (p : Part) : Part := (List.finRange 32).foldl (fun p c => p.unforceChannel .engine c) p

/-- R187: a valid block is loaded. -/
def loadBlock (p : Part) (b : Block) : Part :=
  let p := p.modMonitor fun m => { m with windows := b.windows.map WindowEntry.window, timeout := b.timeout }
  let p := p.modCommand fun u =>
    { u with queues := b.queues.map QueueEntry.context, path := .free, urgentPointer := 7, normalPointer := 7 }
  let p := p.modPosting fun u =>
    { u with cqs := b.cqs.map CompletionEntry.context, ring := b.ring, writeList := [], restore := none }
  p.unforceEngine.modEngine fun e => { e with state := .running }

/-- CONFIGURATION BLOCK ARRIVES: all 384 bytes of the read in flight (R175, R186 to R188). -/
def configurationBlockArrives (data : List Byte) (p : Part) : Option Part :=
  if p.monitor.block.isSome && data.length == 384 then
    let b := readBlock data
    match b.loadFault with
    | .none => some (p.endBlockRead.loadBlock b)
    | fault => some (p.loadFailed fault)
  else none

/-! ## HALT (R189) -/

/-- R189 part 2, one queue: the parked command of a HOLDING queue is completed HALTED, and the queue enters ACTIVE. -/
def haltQueue (p : Part) (q : Fin 8) : Part :=
  match (p.queue q).state, (p.queue q).hold with
  | .holding, some held => (p.completeHeld q held .halted 0).modQueue q fun x => { x with state := .active }
  | _, _ => p

/-- R189 parts 1 and 3: the read of the command path is marked discarded. -/
def discardRead (p : Part) : Part := p.setPath (discardPath p.command.path)

/-- R189 part 3: the SCHEDULE LIST whose step list is being read is completed HALTED. -/
def haltList (p : Part) : Part :=
  match p.command.path with
  | .list q h false => p.complete q h .halted 0
  | _ => p

/-- R189: the parts of an accepted HALT in order. -/
def halt (p : Part) : Part :=
  let p := p.modEngine fun e => { e with state := .halting, lastRefused := .none }
  let p := ((List.finRange 8).foldl (fun p q => p.haltQueue q) p).haltList.discardRead
  let p := p.dropOn (List.finRange 32) (fun _ => true) .halted
  (p.offerAll .halt).takeOver

/-- HALT (R183, R189). -/
def controlHalt (p : Part) : Part := if p.engine.state = .running then p.halt else p.refuseControl .halt

/-! ## The register window (R182, R183, R195) -/

/-- A CONTROL write: 1 START, 2 HALT, 3 SOFT RESET, any other code refused as UNKNOWN. -/
def controlWrite (operation : BitVec 4) (p : Part) : Part :=
  match operation.toNat with
  | 1 => p.controlStart
  | 2 => p.controlHalt
  | 3 => p.softReset
  | _ => p.refuseControl .unknown

/-- A NOTIFY write: 1 POST TAIL, 2 CONSUME, 3 RESET QUEUE, any other code rejected. -/
def notifyWrite (operation target : BitVec 4) (index : BitVec 16) (p : Part) : Part :=
  match operation.toNat with
  | 1 => p.postTail target index
  | 2 => p.consume target index
  | 3 => p.resetQueue target
  | _ => p.rejectNotify

/-- CONFIG BASE LOW: the six lowest bits are ignored. -/
def writeBaseLow (p : Part) (value : BitVec 32) : Part :=
  p.modEngine fun e => { e with configBase := (e.configBase.extractLsb' 32 32) ++ (value &&& 0xFFFFFFC0) }

/-- CONFIG BASE HIGH. -/
def writeBaseHigh (p : Part) (value : BitVec 32) : Part :=
  p.modEngine fun e => { e with configBase := value ++ (e.configBase.extractLsb' 0 32) }

/-- A write to the register at an offset (R195). IDENT, STATE and offsets that hold no register ignore it (log 13). -/
def registerWrite (offset : BitVec 8) (value : BitVec 32) (p : Part) : Part :=
  match offset.toNat with
  | 0x04 => p.controlWrite (value.extractLsb' 0 4)
  | 0x08 => p.writeBaseLow value
  | 0x0C => p.writeBaseHigh value
  | 0x10 => p.notifyWrite (value.extractLsb' 28 4) (value.extractLsb' 24 4) (value.extractLsb' 0 16)
  | 0x18 => p.intCauseWrite value
  | 0x1C => p.intEnableWrite value
  | _ => p

/-! ## The ends of accesses in a fault (R176 to R178) -/

/-- The owner of the command path's read: the Command Unit's record fetch or the Step Scheduler's list read. -/
def readOwner : CommandPath → Option AccessOwner
  | .free => none
  | .fetch _ _ => some .commandUnit
  | .list _ _ _ => some .stepScheduler

/-- The access of an owner that is in flight. -/
def accessOf (p : Part) (owner : AccessOwner) : Option Access :=
  match owner with
  | .commandUnit | .stepScheduler => if readOwner p.command.path = some owner then p.monitor.command else none
  | .postingUnit => p.monitor.posting
  | .engineControl => p.monitor.block

/-- An access in flight ends in a fault, which its owner takes (R178). -/
def accessFault (p : Part) (owner : AccessOwner) (a : Access) (f : AccessFault) : Part :=
  match owner with
  | .commandUnit | .stepScheduler => p.commandReadFault f
  | .postingUnit => p.writeFault a f
  | .engineControl => p.loadFailed (if f = .busError then .blockBusError else .blockTimeout)

/-- ACCESS TIMEOUT: taken when the timer of the owner's access has reached its limit (R176). -/
def accessTimeout (owner : AccessOwner) (p : Part) : Option Part :=
  match p.accessOf owner with
  | none => none
  | some a => if a.limit ≤ a.timer then some (p.accessFault owner a .timeout) else none

/-- BUS ERROR RESPONSE: the answer to the owner's access carries a bus error (R177). -/
def busErrorResponse (owner : AccessOwner) (p : Part) : Option Part :=
  match p.accessOf owner with
  | none => none
  | some a => some (p.accessFault owner a .busError)

/-- LATE ANSWER: an answer that names an access no longer in flight is discarded (R177). -/
def lateAnswer (p : Part) : Part := p

/-- RESETN NEGATED: the part begins as the hard reset left it (R181). -/
def resetnNegated (p : Part) : Part := { p with resetAsserted := false }

end Part

end Sys2Proof.Machine
end

