-- ==== Sys2Proof/Machine/Answers.lean ====
section
/-!
DEFINITION. The answers of the system bus and the ends of accesses (section 10.3).
-/

namespace Sys2Proof.Machine

/-- RECORD ARRIVES (R136, R138, R197). -/
def execRecordArrives (data : List Byte) (s : State) : Host.Outcome State Fault Refusal :=
  event (Part.recordArrives data) s

/-- LIST ARRIVES (R17, R142). -/
def execListArrives (data : List Byte) (s : State) : Host.Outcome State Fault Refusal :=
  event (Part.listArrives data) s

/-- COMPLETION WRITE ANSWERED (R154, R158, R169). -/
def execCompletionWriteAnswered (s : State) : Host.Outcome State Fault Refusal :=
  event Part.completionWriteAnswered s

/-- NOTICE WRITE ANSWERED (R162, R169). -/
def execNoticeWriteAnswered (s : State) : Host.Outcome State Fault Refusal :=
  event Part.noticeWriteAnswered s

/-- CONFIGURATION BLOCK ARRIVES (R186 to R188). -/
def execConfigurationBlockArrives (data : List Byte) (s : State) : Host.Outcome State Fault Refusal :=
  event (Part.configurationBlockArrives data) s

/-- ACCESS TIMEOUT (R176, R178). -/
def execAccessTimeout (owner : AccessOwner) (s : State) : Host.Outcome State Fault Refusal :=
  event (Part.accessTimeout owner) s

/-- BUS ERROR RESPONSE (R177, R178). -/
def execBusErrorResponse (owner : AccessOwner) (s : State) : Host.Outcome State Fault Refusal :=
  event (Part.busErrorResponse owner) s

/-- LATE ANSWER (R177). -/
def execLateAnswer (s : State) : Host.Outcome State Fault Refusal :=
  event (fun p => some p.lateAnswer) s

end Sys2Proof.Machine
end

