-- ==== Sys2Proof/Machine/Fetched.lean ====
section
/-!
DEFINITION. The twenty fetched commands: each is the arrival of its record as the answer to the record fetch in flight
(R136; log 7), the raw form of which is RECORD ARRIVES.
-/

namespace Sys2Proof.Machine

/-- SCHEDULE (R15, R7 to R14, R18). -/
def execSchedule (h : Header) (b : ScheduleBody) (s : State) : Host.Outcome State Fault Refusal :=
  event (Part.arrival h (.schedule b)) s

/-- SCHEDULE REPEATING (R16, R3, R7 to R14, R18). -/
def execScheduleRepeating (h : Header) (b : RepeatingBody) (s : State) : Host.Outcome State Fault Refusal :=
  event (Part.arrival h (.scheduleRepeating b)) s

/-- SCHEDULE LIST: check 1 and the request of its step list (R17). -/
def execScheduleList (h : Header) (b : ListBody) (s : State) : Host.Outcome State Fault Refusal :=
  event (Part.arrival h (.scheduleList b)) s

/-- CANCEL TAG (R24, R27). -/
def execCancelTag (h : Header) (tag : BitVec 16) (s : State) : Host.Outcome State Fault Refusal :=
  event (Part.arrival h (.cancelTag tag)) s

/-- CANCEL CHANNEL (R25, R27). -/
def execCancelChannel (h : Header) (channel : BitVec 8) (s : State) : Host.Outcome State Fault Refusal :=
  event (Part.arrival h (.cancelChannel channel)) s

/-- CONFIGURE CHANNEL (R44, R45). -/
def execConfigureChannel (h : Header) (b : ChannelBody) (s : State) : Host.Outcome State Fault Refusal :=
  event (Part.arrival h (.configureChannel b)) s

/-- CONFIGURE PAIR (R46, R47). -/
def execConfigurePair (h : Header) (b : PairBody) (s : State) : Host.Outcome State Fault Refusal :=
  event (Part.arrival h (.configurePair b)) s

/-- QUERY CHANNEL (R48). -/
def execQueryChannel (h : Header) (channel : BitVec 8) (s : State) : Host.Outcome State Fault Refusal :=
  event (Part.arrival h (.queryChannel channel)) s

/-- CONFIGURE DOMAIN (R86). -/
def execConfigureDomain (h : Header) (b : DomainBody) (s : State) : Host.Outcome State Fault Refusal :=
  event (Part.arrival h (.configureDomain b)) s

/-- LOAD SAFE SEQUENCE (R87). -/
def execLoadSafeSequence (h : Header) (b : SequenceBody) (s : State) : Host.Outcome State Fault Refusal :=
  event (Part.arrival h (.loadSafeSequence b)) s

/-- ARM DOMAIN (R88). -/
def execArmDomain (h : Header) (domain : BitVec 8) (s : State) : Host.Outcome State Fault Refusal :=
  event (Part.arrival h (.armDomain domain)) s

/-- DISARM DOMAIN (R89). -/
def execDisarmDomain (h : Header) (domain : BitVec 8) (s : State) : Host.Outcome State Fault Refusal :=
  event (Part.arrival h (.disarmDomain domain)) s

/-- TRIP DOMAIN (R90, R70, R71). -/
def execTripDomain (h : Header) (domain : BitVec 8) (s : State) : Host.Outcome State Fault Refusal :=
  event (Part.arrival h (.tripDomain domain)) s

/-- RELEASE DOMAIN (R80 to R84). -/
def execReleaseDomain (h : Header) (domain : BitVec 8) (s : State) : Host.Outcome State Fault Refusal :=
  event (Part.arrival h (.releaseDomain domain)) s

/-- QUERY DOMAIN (R91). -/
def execQueryDomain (h : Header) (domain : BitVec 8) (s : State) : Host.Outcome State Fault Refusal :=
  event (Part.arrival h (.queryDomain domain)) s

/-- CONFIGURE FAULT INPUT (R99, R100). -/
def execConfigureFaultInput (h : Header) (b : InputBody) (s : State) : Host.Outcome State Fault Refusal :=
  event (Part.arrival h (.configureFaultInput b)) s

/-- CLEAR FAULT LATCH (R102). -/
def execClearFaultLatch (h : Header) (input : BitVec 8) (s : State) : Host.Outcome State Fault Refusal :=
  event (Part.arrival h (.clearFaultLatch input)) s

/-- CONFIGURE SUPERVISOR (R119, R120). -/
def execConfigureSupervisor (h : Header) (b : SupervisorBody) (s : State) : Host.Outcome State Fault Refusal :=
  event (Part.arrival h (.configureSupervisor b)) s

/-- RESTORE PRIMARY CLOCK (R121). -/
def execRestorePrimaryClock (h : Header) (s : State) : Host.Outcome State Fault Refusal :=
  event (Part.arrival h .restorePrimaryClock) s

/-- READ TIME (R123). -/
def execReadTime (h : Header) (s : State) : Host.Outcome State Fault Refusal :=
  event (Part.arrival h .readTime) s

end Sys2Proof.Machine
end

