-- ==== Sys2Proof/Machine/Moments.lean ====
section
/-!
DEFINITION. The moments at which the part acts and the clock edges. A moment that is not there is not taken (log 2).
-/

namespace Sys2Proof.Machine

/-- DUE TIME EVENT (R20, R21, R36, R41, R78). -/
def execDueTimeEvent (due : DueEvent) (s : State) : Host.Outcome State Fault Refusal :=
  event (Part.dueTimeEvent due.channel due.tripWaits) s

/-- DEAD TIME EXPIRY (R40). -/
def execDeadTimeExpiry (pair : Fin 16) (s : State) : Host.Outcome State Fault Refusal :=
  event (Part.deadTimeExpiry pair) s

/-- SAFE SEQUENCE ENTRY DUE (R75). -/
def execSafeSequenceEntryDue (domain : Fin 8) (entry : Nat) (s : State) : Host.Outcome State Fault Refusal :=
  event (Part.safeSequenceEntryDue domain entry) s

/-- SAMPLE EVENT (R93 to R98). -/
def execSampleEvent (input : Fin 16) (pinHigh : Bool) (s : State) : Host.Outcome State Fault Refusal :=
  event (Part.sampleEvent input pinHigh) s

/-- PRIMARY STOP (R109, R110). -/
def execPrimaryStop (s : State) : Host.Outcome State Fault Refusal :=
  event Part.primaryStop s

/-- WINDOW END (R113 to R116). -/
def execWindowEnd (s : State) : Host.Outcome State Fault Refusal :=
  event Part.windowEnd s

/-- REFERENCE TIMEOUT (R113, R115, R116). -/
def execReferenceTimeout (s : State) : Host.Outcome State Fault Refusal :=
  event Part.referenceTimeout s

/-- HOLDOFF EXPIRY (R159). -/
def execHoldoffExpiry (queue : Fin 4) (s : State) : Host.Outcome State Fault Refusal :=
  event (Part.holdoffExpiry queue) s

/-- FETCH GRANT (R132 to R135). -/
def execFetchGrant (s : State) : Host.Outcome State Fault Refusal :=
  event Part.fetchGrant s

/-- TIMEBASE TICK (R105, R106). -/
def execTimebaseTick (s : State) : Host.Outcome State Fault Refusal :=
  event (fun p => some p.timebaseTick) s

/-- REF EDGE (R113). -/
def execRefEdge (s : State) : Host.Outcome State Fault Refusal :=
  event Part.refEdge s

/-- TCLK EDGE (R108). -/
def execTclkEdge (s : State) : Host.Outcome State Fault Refusal :=
  event (fun p => some p.tclkEdge) s

/-- PRIMARY INDICATION ABSENT (R109). -/
def execPrimaryIndicationAbsent (s : State) : Host.Outcome State Fault Refusal :=
  event Part.primaryIndicationAbsent s

end Sys2Proof.Machine
end

