-- ==== Sys2Proof/Machine/Registers.lean ====
section
/-!
DEFINITION. The commands of the bus slave window and of the RESETn pin (sections 11.1, 11.2).
-/

namespace Sys2Proof.Machine

/-- START: a CONTROL write of operation 1 (R183, R185). -/
def execStart (s : State) : Host.Outcome State Fault Refusal :=
  event (fun p => some (p.controlWrite 1)) s

/-- HALT: a CONTROL write of operation 2 (R183, R189, R190). -/
def execHalt (s : State) : Host.Outcome State Fault Refusal :=
  event (fun p => some (p.controlWrite 2)) s

/-- SOFT RESET: a CONTROL write of operation 3 (R183, R194). -/
def execSoftReset (s : State) : Host.Outcome State Fault Refusal :=
  event (fun p => some (p.controlWrite 3)) s

/-- A CONTROL write whose operation field holds a value other than 1, 2 or 3 (R183, R195). -/
def execUnknownControlOperation (operation : BitVec 4) (s : State) : Host.Outcome State Fault Refusal :=
  event (fun p => some (p.controlWrite operation)) s

/-- POST TAIL: a NOTIFY write of operation 1 (R128, R129, R145). -/
def execPostTail (target : BitVec 4) (index : BitVec 16) (s : State) : Host.Outcome State Fault Refusal :=
  event (fun p => some (p.notifyWrite 1 target index)) s

/-- RESET QUEUE: a NOTIFY write of operation 3, whose index has no meaning (R129, R130). -/
def execResetQueue (target : BitVec 4) (s : State) : Host.Outcome State Fault Refusal :=
  event (fun p => some (p.notifyWrite 3 target 0)) s

/-- CONSUME: a NOTIFY write of operation 2 (R156, R157, R163). -/
def execConsume (target : BitVec 4) (index : BitVec 16) (s : State) : Host.Outcome State Fault Refusal :=
  event (fun p => some (p.notifyWrite 2 target index)) s

/-- A NOTIFY write whose operation field holds 0 or 4 to 15 (R182, R195). -/
def execUnrecognisedNotifyOperation (operation target : BitVec 4) (index : BitVec 16) (s : State) : Host.Outcome State Fault Refusal :=
  event (fun p => some (p.notifyWrite operation target index)) s

/-- A write to INT CAUSE (R166). -/
def execIntCauseWrite (value : BitVec 32) (s : State) : Host.Outcome State Fault Refusal :=
  event (fun p => some (p.intCauseWrite value)) s

/-- A write to INT ENABLE (R166). -/
def execIntEnableWrite (value : BitVec 32) (s : State) : Host.Outcome State Fault Refusal :=
  event (fun p => some (p.intEnableWrite value)) s

/-- A write to the register at an offset of the window (R182, R195). -/
def execRegisterWrite (offset : BitVec 8) (value : BitVec 32) (s : State) : Host.Outcome State Fault Refusal :=
  event (fun p => some (p.registerWrite offset value)) s

/-- HARD RESET: RESETn is asserted (R181). -/
def execHardReset (s : State) : Host.Outcome State Fault Refusal :=
  .next { s with part := s.part.hardReset }

/-- RESETN NEGATED (R181). -/
def execResetnNegated (s : State) : Host.Outcome State Fault Refusal :=
  .next { s with part := s.part.resetnNegated }

end Sys2Proof.Machine
end

