-- ==== Sys2Proof/Machine/Dispatch.lean ====
section
/-!
DEFINITION. The dispatch: each command's effect on everything but the queue of commands.
-/

namespace Sys2Proof.Machine

def exec (i : Instr) (s : State) : Host.Outcome State Fault Refusal :=
  match i with
  | .schedule h b => Sys2Proof.Machine.execSchedule h b s
  | .scheduleRepeating h b => Sys2Proof.Machine.execScheduleRepeating h b s
  | .scheduleList h b => Sys2Proof.Machine.execScheduleList h b s
  | .cancelTag h tag => Sys2Proof.Machine.execCancelTag h tag s
  | .cancelChannel h channel => Sys2Proof.Machine.execCancelChannel h channel s
  | .configureChannel h b => Sys2Proof.Machine.execConfigureChannel h b s
  | .configurePair h b => Sys2Proof.Machine.execConfigurePair h b s
  | .queryChannel h channel => Sys2Proof.Machine.execQueryChannel h channel s
  | .configureDomain h b => Sys2Proof.Machine.execConfigureDomain h b s
  | .loadSafeSequence h b => Sys2Proof.Machine.execLoadSafeSequence h b s
  | .armDomain h domain => Sys2Proof.Machine.execArmDomain h domain s
  | .disarmDomain h domain => Sys2Proof.Machine.execDisarmDomain h domain s
  | .tripDomain h domain => Sys2Proof.Machine.execTripDomain h domain s
  | .releaseDomain h domain => Sys2Proof.Machine.execReleaseDomain h domain s
  | .queryDomain h domain => Sys2Proof.Machine.execQueryDomain h domain s
  | .configureFaultInput h b => Sys2Proof.Machine.execConfigureFaultInput h b s
  | .clearFaultLatch h input => Sys2Proof.Machine.execClearFaultLatch h input s
  | .configureSupervisor h b => Sys2Proof.Machine.execConfigureSupervisor h b s
  | .restorePrimaryClock h => Sys2Proof.Machine.execRestorePrimaryClock h s
  | .readTime h => Sys2Proof.Machine.execReadTime h s
  | .start => Sys2Proof.Machine.execStart s
  | .halt => Sys2Proof.Machine.execHalt s
  | .softReset => Sys2Proof.Machine.execSoftReset s
  | .unknownControlOperation operation => Sys2Proof.Machine.execUnknownControlOperation operation s
  | .postTail target index => Sys2Proof.Machine.execPostTail target index s
  | .resetQueue target => Sys2Proof.Machine.execResetQueue target s
  | .consume target index => Sys2Proof.Machine.execConsume target index s
  | .unrecognisedNotifyOperation operation target index => Sys2Proof.Machine.execUnrecognisedNotifyOperation operation target index s
  | .intCauseWrite value => Sys2Proof.Machine.execIntCauseWrite value s
  | .intEnableWrite value => Sys2Proof.Machine.execIntEnableWrite value s
  | .registerWrite offset value => Sys2Proof.Machine.execRegisterWrite offset value s
  | .hardReset => Sys2Proof.Machine.execHardReset s
  | .resetnNegated => Sys2Proof.Machine.execResetnNegated s
  | .dueTimeEvent due => Sys2Proof.Machine.execDueTimeEvent due s
  | .deadTimeExpiry pair => Sys2Proof.Machine.execDeadTimeExpiry pair s
  | .safeSequenceEntryDue domain entry => Sys2Proof.Machine.execSafeSequenceEntryDue domain entry s
  | .sampleEvent input pinHigh => Sys2Proof.Machine.execSampleEvent input pinHigh s
  | .primaryStop => Sys2Proof.Machine.execPrimaryStop s
  | .windowEnd => Sys2Proof.Machine.execWindowEnd s
  | .referenceTimeout => Sys2Proof.Machine.execReferenceTimeout s
  | .holdoffExpiry queue => Sys2Proof.Machine.execHoldoffExpiry queue s
  | .fetchGrant => Sys2Proof.Machine.execFetchGrant s
  | .recordArrives data => Sys2Proof.Machine.execRecordArrives data s
  | .listArrives data => Sys2Proof.Machine.execListArrives data s
  | .completionWriteAnswered => Sys2Proof.Machine.execCompletionWriteAnswered s
  | .noticeWriteAnswered => Sys2Proof.Machine.execNoticeWriteAnswered s
  | .configurationBlockArrives data => Sys2Proof.Machine.execConfigurationBlockArrives data s
  | .accessTimeout owner => Sys2Proof.Machine.execAccessTimeout owner s
  | .busErrorResponse owner => Sys2Proof.Machine.execBusErrorResponse owner s
  | .lateAnswer => Sys2Proof.Machine.execLateAnswer s
  | .timebaseTick => Sys2Proof.Machine.execTimebaseTick s
  | .refEdge => Sys2Proof.Machine.execRefEdge s
  | .tclkEdge => Sys2Proof.Machine.execTclkEdge s
  | .primaryIndicationAbsent => Sys2Proof.Machine.execPrimaryIndicationAbsent s

end Sys2Proof.Machine
end

