-- ==== Sys2Proof/Machine/Step.lean ====
section
/-!
DEFINITION. One step: the command at the front of the queue is taken, or a period of the backup oscillator passes; and the
interface by which the host puts a command there.
-/

namespace Sys2Proof.Machine

/-- The command at the front is taken, with the rest of the queue left; on an empty queue one period of the backup oscillator
passes, which the primary-stop detector counts while PRIMARY is active (R108; DESIGN CHOICE, log 1). -/
def step (s : State) : Host.Outcome State Fault Refusal :=
  match s.pending with
  | [] => .next { s with part := s.part.backupPeriod }
  | c :: rest => exec c { s with pending := rest }

/-- The state with the command that a word spells put at the front of the queue; unchanged where the word spells none. -/
def State.withFetchWord (s : State) (nbits w : Nat) : State :=
  match decodeTableWord nbits w with
  | none => s
  | some c => { s with pending := c :: s.pending }

end Sys2Proof.Machine
end

