-- ==== Sys2Proof/Safety.lean ====
section
/-!
DEFINITION. What counts as a sound state of the ES-2440, in the terms the statements use: the record a fetched command
came in, the hypotheses under which a command's effect is not cut short by a posting fault, and the invariants.
-/

namespace Sys2Proof

/-- The header and the command of a row that is the arrival of a record (section 8.7). -/
def Instr.record? : Instr → Option (Header × Command)
  | .schedule h b => some (h, .schedule b)
  | .scheduleRepeating h b => some (h, .scheduleRepeating b)
  | .scheduleList h b => some (h, .scheduleList b)
  | .cancelTag h tag => some (h, .cancelTag tag)
  | .cancelChannel h channel => some (h, .cancelChannel channel)
  | .configureChannel h b => some (h, .configureChannel b)
  | .configurePair h b => some (h, .configurePair b)
  | .queryChannel h channel => some (h, .queryChannel channel)
  | .configureDomain h b => some (h, .configureDomain b)
  | .loadSafeSequence h b => some (h, .loadSafeSequence b)
  | .armDomain h domain => some (h, .armDomain domain)
  | .disarmDomain h domain => some (h, .disarmDomain domain)
  | .tripDomain h domain => some (h, .tripDomain domain)
  | .releaseDomain h domain => some (h, .releaseDomain domain)
  | .queryDomain h domain => some (h, .queryDomain domain)
  | .configureFaultInput h b => some (h, .configureFaultInput b)
  | .clearFaultLatch h input => some (h, .clearFaultLatch input)
  | .configureSupervisor h b => some (h, .configureSupervisor b)
  | .restorePrimaryClock h => some (h, .restorePrimaryClock)
  | .readTime h => some (h, .readTime)
  | .start | .halt | .softReset | .unknownControlOperation _ | .postTail _ _ | .resetQueue _ | .consume _ _
  | .unrecognisedNotifyOperation _ _ _ | .intCauseWrite _ | .intEnableWrite _ | .registerWrite _ _ | .hardReset
  | .resetnNegated | .dueTimeEvent _ | .deadTimeExpiry _ | .safeSequenceEntryDue _ _ | .sampleEvent _ _ | .primaryStop
  | .windowEnd | .referenceTimeout | .holdoffExpiry _ | .fetchGrant | .recordArrives _ | .listArrives _
  | .completionWriteAnswered | .noticeWriteAnswered | .configurationBlockArrives _ | .accessTimeout _
  | .busErrorResponse _ | .lateAnswer | .timebaseTick | .refEdge | .tclkEdge | .primaryIndicationAbsent => none

namespace Machine

/-- The command takes the machine to the same state with another part: the queue of commands stays as it was. -/
def takes (i : Instr) (s : State) (p : Part) : Prop := exec i s = .next { s with part := p }

/-- The command takes the machine to a state whose queue of commands is as it was and whose part satisfies `post`. -/
def leads (i : Instr) (s : State) (post : Part → Prop) : Prop := ∃ p, takes i s p ∧ post p

namespace Part

/-! ## Hypotheses of the statements -/

/-- The entry at the tail of completion queue n lies in a window that allows the write (R154, R173). -/
def tailWritable (p : Part) (n : Fin 4) : Bool := p.monitor.allows true ((p.cq n).base + 16 * (p.cq n).tail) 16

/-- The entry at the tail of the notice ring lies in a window that allows the write (R162, R173). -/
def noticeTailWritable (p : Part) : Bool :=
  p.monitor.allows true (p.posting.ring.base + 32 * p.posting.ring.tail) 32

/-- The queue whose record or step list is being read. -/
def pathQueue : CommandPath → Option (Fin 8)
  | .free => none
  | .fetch q _ => some q
  | .list q _ _ => some q

/-- The queue whose record is being fetched. -/
def pathQueueOfFetch : CommandPath → Option (Fin 8)
  | .fetch q _ => some q
  | _ => none

/-- Whether a command that may yet be completed is bound to completion queue n: one of a queue that is not DISABLED, of
the queue that occupies the command path, or of an entry in use. -/
def owes (p : Part) (n : Fin 4) : Bool :=
  ((List.finRange 8).any fun q =>
      ((p.queue q).state != .disabled || pathQueue p.command.path == some q) && (p.queue q).cq == n) ||
    (List.finRange 64).any fun i => (p.entry i).any fun e => e.cq == n

/-- No hand-over of this event can meet a posting fault: none has been met, and the next record to be issued, if one is,
goes to an entry the windows allow. -/
def writesAllowed (p : Part) : Bool :=
  p.posting.fault.isNone &&
    (!p.isPosting || p.monitor.posting.isSome ||
      (p.posting.writeList.isEmpty && ((List.finRange 4).all fun n => !p.owes n || p.tailWritable n) &&
        (!p.posting.ring.enabled || p.noticeTailWritable)))

/-- Engine Control has nothing to do at the end of an event: no posting fault, and no HALT whose drain is complete. -/
def settled (p : Part) : Bool := p.posting.fault.isNone && !(p.engine.state == .halting && p.haltComplete)

/-- RESETn is negated, and no hand-over of this event can meet a posting fault. -/
def awake (p : Part) : Bool := !p.resetAsserted && p.writesAllowed

/-- RESETn is negated, the engine is RUNNING and a record of the ACTIVE queue q is being fetched, live (R135). -/
def fetching (p : Part) (q : Fin 8) : Bool :=
  !p.resetAsserted && p.engine.state == .running && p.command.path == .fetch q false && (p.queue q).state == .active

/-- A record of queue q is being fetched, and its command will meet no posting fault. -/
def ready (p : Part) (q : Fin 8) : Bool := p.fetching q && p.writesAllowed

/-- The part after the record of queue q has arrived and before its command is taken: the path free and head advanced
(R136). -/
def taken (p : Part) (q : Fin 8) : Part := p.freePath.advanceHead q

/-- The answer to an arrived command whose refusals stand in a table, in order: the first row that applies completes it
with its status and aux, and if none applies the command is accepted, with the effect given. -/
def answered (p : Part) (q : Fin 8) (h : Header) (table : List (Bool × Status × Nat)) (accepted : Part) : Part :=
  match table.find? fun row => row.1 with
  | some (_, status, aux) => p.complete q h status aux
  | none => accepted

/-! ## Admission as one table and one effect -/

/-- One check of R7 that names the first step failing it, by its number from 1. -/
def stepCheck (steps : List RawStep) (status : Status) (passes : RawStep → Bool) : Bool × Status × Nat :=
  (!steps.all passes, status, steps.findIdx (fun r => !passes r) + 1)

/-- The table of R7, row by row, for a command of queue q whose step count passes or fails check 1. -/
def admissionTable (p : Part) (q : Fin 8) (h : Header) (countPasses : Bool) (steps : List RawStep) :
    List (Bool × Status × Nat) :=
  let free := Config.storeSlots - p.storedSteps
  let left := (p.queue q).quota - p.inUse q
  [ (!countPasses, .badField, 0),
    stepCheck steps .badField fun r =>
      decide (r.channel < 32) && decide (dueTime h p.now r ≤ maxTime) && r.bodyValid (max (dueTime h p.now r) p.now),
    stepCheck steps .noAuthority fun r => (p.queue q).mask.getLsbD r.channel,
    stepCheck steps .forced fun r => (p.channel r.chan).force.isNone,
    stepCheck steps .tooLate fun r => !(refuseLate h && decide (dueTime h p.now r < p.now)),
    (decide (free < steps.length) || decide ((p.queue q).quota < p.inUse q + steps.length), .noSpace, min free left),
    (completeOnExecution h && (List.finRange 64).all fun i => (p.entry i).isSome, .noTracking, 0) ]

/-- The record an admitted step takes (R2, R13), with the tracking link of its command. -/
def admittedStep (p : Part) (q : Fin 8) (h : Header) (link : Option (Fin 64)) (r : RawStep) : Step :=
  { effective := max (dueTime h p.now r) p.now, body := r.stepBody, tag := r.tag, origin := q, link := link,
    late := decide (dueTime h p.now r < p.now) }

/-- The entry an admitted deferred command is given (R52). -/
def admittedEntry (p : Part) (q : Fin 8) (h : Header) (steps : List RawStep) : TableEntry :=
  { queue := q, id := h.id, cq := (p.queue q).cq, total := steps.length, executed := 0,
    late := steps.any fun r => decide (dueTime h p.now r < p.now), drops := 0, remaining := steps.length,
    lastTime := p.now }

/-- R13: `p'` is `p` with a command of queue q admitted whole. Each step stands in its channel's timeline behind the steps
of its effective time, in step-number order; a deferred command takes the lowest free entry, and any other is completed. -/
def admits (p : Part) (q : Fin 8) (h : Header) (steps : List RawStep) (p' : Part) : Prop :=
  ∃ link : Option (Fin 64),
    (∀ c : Fin 32, (p'.timeline c).Pairwise (fun a b => a.effective ≤ b.effective) ∧
      ∀ t : Nat, batchAt t (p'.timeline c) = batchAt t (p.timeline c) ++
        batchAt t ((steps.filter fun r => r.chan == c).map (p.admittedStep q h link))) ∧
    match link with
    | none =>
      completeOnExecution h = false ∧
        p' = { p.complete q h (if steps.any fun r => decide (dueTime h p.now r < p.now) then .late else .ok)
          steps.length with timelines := p'.timelines }
    | some i =>
      completeOnExecution h = true ∧ p.entry i = none ∧ (∀ j : Fin 64, j < i → p.entry j ≠ none) ∧
        p' = { p.setEntry i (some (p.admittedEntry q h steps)) with timelines := p'.timelines }

/-! ## Refusal tables -/

/-- The refusals of CONFIGURE CHANNEL, in the order of R44. -/
def channelTable (p : Part) (q : Fin 8) (b : ChannelBody) : List (Bool × Status × Nat) :=
  let c := Fin.ofNat 32 b.channel.toNat
  let pair := p.pair (pairOf c)
  let partner := p.channel (partnerOf c)
  let idleActive := IdleLevel.ofCode b.idleLevel.toNat = some (.level pair.polarity.activeLevel)
  [ (decide (32 ≤ b.channel.toNat), .badField, 1),
    (decide (b.safeLevel.toNat < 1 ∨ 3 < b.safeLevel.toNat ∨ b.idleLevel.toNat < 1 ∨ 4 < b.idleLevel.toNat),
      .badField, 2),
    (!(p.queue q).mask.getLsbD b.channel.toNat, .noAuthority, b.channel.toNat),
    ((p.channel c).force.isSome, .forced, b.channel.toNat),
    (decide (p.timeline c ≠ []), .wrongState, 1),
    (decide (pair.enabled = true ∧ Level.ofCode b.safeLevel.toNat = some pair.polarity.activeLevel ∧
      partner.safe = pair.polarity.activeLevel), .badField, 3),
    (decide (pair.enabled = true ∧ idleActive ∧ (partner.level = pair.polarity.activeLevel ∨
      partner.waiting.map Waiting.level = some pair.polarity.activeLevel)), .wrongState, 2) ]

/-! ## Offers -/

/-- Whether the domain selects source n and it is active (R67): an input, 0 to 15, that is enabled and in LEVEL mode filtered
active or in LATCHED mode latched (R95, R96), or CLOCK, 16, while the supervisor is FAILED (R112). -/
def sourceActive (p : Part) (d : Domain) (n : Fin 17) : Bool :=
  d.sources.getLsbD n.val &&
    if h : n.val < 16 then
      (p.input ⟨n.val, h⟩).enabled &&
        match (p.input ⟨n.val, h⟩).mode with
        | .level => (p.input ⟨n.val, h⟩).filtered
        | .latched => (p.input ⟨n.val, h⟩).latch
    else p.clock.supervisor.state == .failed

/-- The refusals of RELEASE DOMAIN, in the order of R80. -/
def releaseTable (p : Part) (domain : BitVec 8) : List (Bool × Status × Nat) :=
  let before := p.domain (Fin.ofNat 8 domain.toNat)
  [ (decide (8 ≤ domain.toNat), .badField, 1),
    (decide (before.state ≠ .tripped), .wrongState, 0),
    ((List.finRange 17).any (p.sourceActive before), .sourceActive,
      (List.finRange 17).findIdx (p.sourceActive before)) ]

/-- What the offer of a source to every domain does to their states, causes and trip times (R69, R70): a domain that does
not select it, or is DISARMED, keeps them; an ARMED one is tripped by it, and a CONTENTION pulse that waited for the trip is a
cause added to it (R78; log 21); one already tripped adds the cause, unless the source is HALT or ENGINE FAULT. A TRIPPING
domain may become TRIPPED within the event. -/
def offered (p : Part) (cause : Cause) (p' : Part) : Prop :=
  ∀ d : Fin 8,
    let before := p.domain d
    let after := p'.domain d
    (after.state = before.state ∨ (after.state = .tripped ∧ before.state = .tripping) ∨
      (before.selects cause = true ∧ before.state = .armed ∧ (after.state = .tripping ∨ after.state = .tripped))) ∧
    (before.selects cause = true → before.state = .armed →
      (after.state = .tripping ∨ after.state = .tripped) ∧
        after.causes = 1#21 <<< cause.number.val |||
          (if before.contentionWaits = true ∧ before.selects .contention = true then 1#21 <<< 17 else 0) ∧
        after.tripTime = p.now) ∧
    (before.state ≠ .armed ∨ before.selects cause = false →
      after.tripTime = before.tripTime ∧
        after.causes =
          if before.selects cause = true ∧ before.state ≠ .disarmed ∧ cause ≠ .halt ∧ cause ≠ .engineFault
          then before.causes ||| 1#21 <<< cause.number.val else before.causes)

/-- What Engine Control does to the channels of no domain or of a DISARMED one (R43): each is FORCED(ENGINE) and at its safe
level, or, where its safe level is the active level of an enabled pair, waits for it with an ENGINE FORCE request. Its level is
then kept, unless the trip of an ARMED domain reaches a channel of its pair, as R66 and R87 rule out. -/
def engineForced (p p' : Part) : Prop :=
  ∀ c : Fin 32, (∀ d : Fin 8, (p.domain d).members.getLsbD c.val = true → (p.domain d).state = .disarmed) →
    let before := p.channel c
    let after := p'.channel c
    after.force = some .engine ∧ after.safe = before.safe ∧
      ((after.level = before.safe ∧ after.waiting = none) ∨
        ((p.pair (pairOf c)).isActive before.safe = true ∧
          after.waiting = some { level := before.safe, kind := .engineForce } ∧
          ((∀ d : Fin 8, (p.domain d).state = .armed → ∀ c' : Fin 32, pairOf c' = pairOf c →
              (p.domain d).members.getLsbD c'.val = false ∧ ∀ e ∈ (p.domain d).sequence, e.channel ≠ c') →
            after.level = before.level)))

/-- What entry to FATAL leaves (R192, R168, R28, R62, R147): the store, the table, the write list and the pending list empty, the
credits cleared and the holdoff timers stopped, the reads of the command path discarded, ENGINE FAULT offered, the channels
taken over, and the reason and the ring kept for STATE. -/
def fatalOf (p : Part) (reason : FatalReason) (ring : FatalRing) (p' : Part) : Prop :=
  p'.engine = { p.engine with state := .fatal, fatalReason := some reason, fatalRing := some ring } ∧
  (∀ c : Fin 32, p'.timeline c = []) ∧ (∀ i : Fin 64, p'.entry i = none) ∧
  p'.posting.writeList = [] ∧ p'.posting.ring = { p.posting.ring with pending := [] } ∧
  (∀ n : Fin 4, p'.cq n = { p.cq n with reserved := 0, timer := none }) ∧
  p'.posting.causes = p.posting.causes ||| 0b0100000 ∧ p'.posting.enables = p.posting.enables ∧
  p'.posting.fault = none ∧ p'.monitor = p.monitor ∧
  p'.command = { p.command with path := match p.command.path with
    | .free => .free
    | .fetch q _ => .fetch q true
    | .list q h _ => .list q h true } ∧
  p.offered .engineFault p' ∧ p.engineForced p' ∧ p'.clock = p.clock ∧ p'.inputs = p.inputs

/-- The completions of a HALT's parts 2 and 3, in order (R189): the parked command of each HOLDING queue, then the SCHEDULE
LIST whose list is being read. -/
def haltedItems (p : Part) : List Item :=
  let halted (q : Fin 8) (h : Header) : Item :=
    .completion (p.queue q).cq
      { queue := q, id := h.id, status := .halted, aux := 0, drops := 0, value := p.now }
  ((List.finRange 8).filterMap fun q =>
    match (p.queue q).state, (p.queue q).hold with
    | .holding, some held => some (halted q held.header)
    | _, _ => none) ++
  match p.command.path with
  | .list q h false => [halted q h]
  | _ => []

/-! ## Invariants -/

/-- The two channels of pair k are not both active (R34). -/
def pairSafe (p : Part) (k : Fin 16) : Bool :=
  !((p.pair k).isActive (p.channel (channelOf k .lower)).level && (p.pair k).isActive (p.channel (channelOf k .upper)).level)

/-- The law the pair guard keeps (R34). -/
def pairsSafe (p : Part) : Bool := (List.finRange 16).all p.pairSafe

/-- Each channel timeline is ordered by effective time (R5). -/
def timelinesOrdered (p : Part) : Prop :=
  ∀ c : Fin 32, (p.timeline c).Pairwise fun a b => a.effective ≤ b.effective

/-- The store's slots suffice for the steps stored (R1). -/
def storeBounded (p : Part) : Prop := p.storedSteps ≤ Config.storeSlots

/-- No queue has more stored steps than its quota (R4); outside RUNNING the store is empty and no command read is live, and
in RUNNING no Configuration Block is being read. -/
def quotasKept (p : Part) : Prop :=
  (∀ q : Fin 8, p.inUse q ≤ (p.queue q).quota) ∧
    (p.engine.state ≠ .running →
      (∀ c : Fin 32, p.timeline c = []) ∧ p.command.path = discardPath p.command.path) ∧
    (p.engine.state = .running → p.monitor.block = none)

/-- A channel is a member of at most one domain, and the two channels of an enabled pair are members of the same domain
or of none (R66). -/
def domainsApart (p : Part) : Prop :=
  (∀ d e : Fin 8, d ≠ e → (p.domain d).members &&& (p.domain e).members = 0) ∧
    ∀ (k : Fin 16) (d : Fin 8), (p.pair k).enabled = true →
      (p.domain d).members.getLsbD (channelOf k .lower).val = (p.domain d).members.getLsbD (channelOf k .upper).val

/-- The pending list holds at most 16 notices (R161), and the lost count is held at 65535 (R160). -/
def noticesBounded (p : Part) : Prop :=
  p.posting.ring.pending.length ≤ Config.pendingLimit ∧ p.posting.ring.lost ≤ Config.lostLimit

end Part

end Machine

end Sys2Proof
end

