-- ==== Sys2Proof/WellFormed.lean ====
section
/-!
DEFINITION. Which terms of `Instr` are commands the outside can make: what the types of the operands do not
already say.
-/

namespace Sys2Proof

/-- A command record has room for exactly five inline step entries (section 12.3). -/
def ScheduleBody.wellFormed (b : ScheduleBody) : Bool := b.entries.length == 5

/-- A command record has room for exactly eight safe-sequence entries (section 12.3). -/
def SequenceBody.wellFormed (b : SequenceBody) : Bool := b.entries.length == 8

/-- Operation codes of CONTROL: 1 START, 2 HALT, 3 SOFT RESET; of NOTIFY: 1 POST TAIL, 2 CONSUME, 3 RESET QUEUE
(section 12.1). In both registers the recognised codes are 1 to 3. -/
def recognisedOperation (operation : BitVec 4) : Bool := 1 ≤ operation.toNat && operation.toNat ≤ 3

/-- The registers whose writes have no row of their own (section 12.1): IDENT, CONFIG BASE LOW, CONFIG BASE HIGH
and STATE. -/
def plainRegisterOffsets : List (BitVec 8) := [0x00, 0x08, 0x0C, 0x14]

/-- The checks on a command term.
* The record rows carry a record's own number of entries; `recordArrives` and `configurationBlockArrives` carry the
  64 and 384 bytes of their reads (R135, R185); a list answer is a whole number of step entries, at most 256 (R8).
* A row for an unrecognised operation carries no recognised code (R183, R195).
* A register write row names a register that has no row of its own (R182).
* A safe-sequence entry is numbered 1 to 8 (R65). -/
def Instr.wellFormed : Instr → Bool
  | .schedule _ b => b.wellFormed
  | .scheduleRepeating _ _ => true
  | .scheduleList _ _ => true
  | .cancelTag _ _ => true
  | .cancelChannel _ _ => true
  | .configureChannel _ _ => true
  | .configurePair _ _ => true
  | .queryChannel _ _ => true
  | .configureDomain _ _ => true
  | .loadSafeSequence _ b => b.wellFormed
  | .armDomain _ _ => true
  | .disarmDomain _ _ => true
  | .tripDomain _ _ => true
  | .releaseDomain _ _ => true
  | .queryDomain _ _ => true
  | .configureFaultInput _ _ => true
  | .clearFaultLatch _ _ => true
  | .configureSupervisor _ _ => true
  | .restorePrimaryClock _ => true
  | .readTime _ => true
  | .start => true
  | .halt => true
  | .softReset => true
  | .unknownControlOperation operation => !recognisedOperation operation
  | .postTail _ _ => true
  | .resetQueue _ => true
  | .consume _ _ => true
  | .unrecognisedNotifyOperation operation _ _ => !recognisedOperation operation
  | .intCauseWrite _ => true
  | .intEnableWrite _ => true
  | .registerWrite offset _ => plainRegisterOffsets.contains offset
  | .hardReset => true
  | .resetnNegated => true
  | .dueTimeEvent _ => true
  | .deadTimeExpiry _ => true
  | .safeSequenceEntryDue _ entry => 1 ≤ entry && entry ≤ 8
  | .sampleEvent _ _ => true
  | .primaryStop => true
  | .windowEnd => true
  | .referenceTimeout => true
  | .holdoffExpiry _ => true
  | .fetchGrant => true
  | .recordArrives data => data.length == 64
  | .listArrives data => data.length % 8 == 0 && 8 ≤ data.length && data.length ≤ 2048
  | .completionWriteAnswered => true
  | .noticeWriteAnswered => true
  | .configurationBlockArrives data => data.length == 384
  | .accessTimeout _ => true
  | .busErrorResponse _ => true
  | .lateAnswer => true
  | .timebaseTick => true
  | .refEdge => true
  | .tclkEdge => true
  | .primaryIndicationAbsent => true

end Sys2Proof
end

