-- ==== Sys2Proof/Certificates/Slice0/Obligations.lean ====
section
/-!
DEFINITION. The statements about the ES-2440, for the provers. Throughout, `s.part.taken q` is the part after the record
of queue q has arrived and before its command is taken (R136), and a refusal table is read by `Part.answered`: the first
row that applies refuses the command. Statements about what an operation hands over use the shared operations
`complete`, `completeWith` and `notify`, of which `CompletionsAreHandedOverAndIssued` and `HandedOverNotice` say what they do.
-/

open Sys2Proof Sys2Proof.Machine

/-! ## The machine -/

/-- The command at the front of the queue is taken with the queue's rest. With no command waiting one period of the backup
oscillator passes: the detector of R108 counts it, up to 32, where PRIMARY is active and RESETn is negated, and nothing else
changes. That the queue is the model's, and that an empty one stands for that period, is the model's choice (DESIGN CHOICE, logs 1
and 11). -/
def Obligations.StepTakesTheFrontCommand : Prop :=
  (∀ (c : Instr) (s : State), step { s with pending := c :: s.pending } = exec c s) ∧
  ∀ s : State, s.pending = [] →
    step s = .next { s with part := { s.part with clock := { s.part.clock with
      detectorCount :=
        if s.part.resetAsserted = false ∧ s.part.clock.source = .primary ∧ s.part.clock.detectorCount < 32
        then s.part.clock.detectorCount + 1 else s.part.clock.detectorCount } } }

/-- R28, R49, R62, R68, R104, R108, R124, R148, R170, R171, R179, R180: every value the spec gives for hard reset. The spec
calls the supervisor's configuration fields zero, which for the fail action, whose codes are 1 and 2, is no action. -/
def Obligations.ResetValues : Prop :=
  let p := State.reset.part
  (∀ c : Fin 32, p.channel c = { level := .float, safe := .float, force := none, waiting := none } ∧ p.timeline c = []) ∧
  (∀ k : Fin 16, p.pair k = { enabled := false, polarity := .activeHigh, deadTime := 0, deadTimeEnd := 0 }) ∧
  (∀ i : Fin 64, p.entry i = none) ∧
  (∀ d : Fin 8, (p.domain d).state = .disarmed ∧ (p.domain d).members = 0 ∧ (p.domain d).sources = 0 ∧
    (p.domain d).disposition = .discard ∧ (p.domain d).sequence = [] ∧ (p.domain d).causes = 0 ∧
    (p.domain d).tripTime = 0 ∧ (p.domain d).progress = []) ∧
  (∀ n : Fin 16, (p.input n).enabled = false ∧ (p.input n).polarity = .activeHigh ∧ (p.input n).mode = .level ∧
    (p.input n).interval = 1 ∧ (p.input n).filterCount = 1 ∧ (p.input n).report = false ∧
    (p.input n).filtered = false ∧ (p.input n).run = 0 ∧ (p.input n).latch = false ∧ (p.input n).active = false) ∧
  (p.clock.time = 0 ∧ p.clock.source = .primary ∧ p.clock.primaryPresent = false ∧ p.clock.detectorCount = 0) ∧
  (let sup := p.clock.supervisor
   sup.state = .disabled ∧ sup.windowLength = 0 ∧ sup.lowerLimit = 0 ∧ sup.upperLimit = 0 ∧ sup.failCount = 0 ∧
     sup.referenceTimeout = 0 ∧ sup.failAction = none ∧ sup.bad = 0 ∧ sup.verdict = none ∧ sup.lastCount = 0 ∧
     sup.window = none) ∧
  (∀ q : Fin 8, p.queue q =
    { state := .disabled, enabled := false, urgent := false, holdWhenFull := false, base := 0, size := 0, cq := 0,
      mask := 0, authority := 0, quota := 0, head := 0, tail := 0, hold := none } ∧ p.inUse q = 0) ∧
  (p.command.path = .free ∧ p.command.urgentPointer = 7 ∧ p.command.normalPointer = 7) ∧
  (∀ n : Fin 4, p.cq n =
    { enabled := false, base := 0, size := 0, threshold := 0, holdoff := 0, head := 0, tail := 0, phase := true,
      reserved := 0, unsignalled := 0, timer := none } ∧ p.waitingCompletions n = 0) ∧
  p.posting.ring =
    { enabled := false, base := 0, size := 0, head := 0, tail := 0, phase := true, sequence := 0, lost := 0,
      pending := [] } ∧
  (p.queuedNotices = 0 ∧ p.posting.writeList = [] ∧ p.posting.causes = 0 ∧ p.posting.enables = 0 ∧
    p.posting.irqAsserted = false) ∧
  (p.monitor.command = none ∧ p.monitor.posting = none ∧ p.monitor.block = none ∧ p.monitor.timeout = 0 ∧
    ∀ w : Fin 8, p.monitor.windows[w] = { base := 0, length := 0, allowRead := false, allowWrite := false }) ∧
  p.engine =
    { state := .off, configBase := 0, loadFault := .none, fatalReason := none, fatalRing := none, lastRefused := .none }

/-- R194, R28, R49, R50, R62, R68, R104, R124, R148, R170, R171, R180: what an accepted SOFT RESET leaves, in any engine state.
Every record takes its soft-reset values, with the configuration parts that those rules keep. Each channel is SCHEDULED and at its
safe level, or, in an enabled pair where the safe level is the active level, waits for it with a RESET request; the dead-time
end of a pair moves exactly if one of its channels leaves the active level (R35). -/
def Obligations.SoftResetLeaves : Prop :=
  ∀ s : State, s.part.resetAsserted = false →
    leads .softReset s fun p =>
      p.engine = { Engine.reset with configBase := s.part.engine.configBase } ∧
      p.clock = { s.part.clock with supervisor := Supervisor.reset } ∧
      (∀ c : Fin 32, p.timeline c = []) ∧ (∀ i : Fin 64, p.entry i = none) ∧
      (∀ d : Fin 8, p.domain d = Domain.reset) ∧ (∀ n : Fin 16, p.input n = FaultInput.reset) ∧
      p.monitor = Monitor.reset ∧
      (p.command.path = .free ∧ p.command.urgentPointer = 7 ∧ p.command.normalPointer = 7) ∧
      (∀ q : Fin 8, p.queue q = { s.part.queue q with state := .disabled, head := 0, tail := 0, hold := none } ∧
        p.inUse q = 0) ∧
      (∀ n : Fin 4, p.waitingCompletions n = 0 ∧
        p.cq n = { s.part.cq n with
          enabled := false, head := 0, tail := 0, phase := true, reserved := 0, unsignalled := 0, timer := none }) ∧
      (p.queuedNotices = 0 ∧
        p.posting.ring = { s.part.posting.ring with
          enabled := false, head := 0, tail := 0, phase := true, sequence := 0, pending := [], lost := 0 }) ∧
      (p.posting.writeList = [] ∧ p.posting.causes = 0 ∧ p.posting.enables = 0 ∧ p.posting.irqAsserted = false) ∧
      (∀ k : Fin 16,
        let leaves (side : Side) : Prop :=
          (s.part.pair k).isActive (s.part.channel (channelOf k side)).level = true ∧
            (s.part.channel (channelOf k side)).safe ≠ (s.part.channel (channelOf k side)).level
        ((leaves .lower ∨ leaves .upper) → p.pair k = { s.part.pair k with
          deadTimeEnd := min (s.part.clock.time + (s.part.pair k).deadTime) (2 ^ 64 - 1) }) ∧
        (¬leaves .lower → ¬leaves .upper → p.pair k = s.part.pair k)) ∧
      ∀ c : Fin 32, (p.channel c).force = none ∧ (p.channel c).safe = (s.part.channel c).safe ∧
        (((p.channel c).level = (s.part.channel c).safe ∧ (p.channel c).waiting = none) ∨
          ((s.part.pair (pairOf c)).isActive (s.part.channel c).safe = true ∧
            (p.channel c).level = (s.part.channel c).level ∧
            (p.channel c).waiting = some { level := (s.part.channel c).safe, kind := .reset }))

/-- R181: asserting RESETn puts every block at its hard-reset values, whatever the state, and negating it changes nothing else;
while it is asserted no other command changes anything, and every register reads as zero. The model's own counter is kept
(logs 5 and 6). -/
def Obligations.ResetnPin : Prop :=
  (∀ s : State,
     takes .hardReset s { Part.reset with resetAsserted := true, freeIndex := s.part.freeIndex } ∧
     takes .resetnNegated s { s.part with resetAsserted := false }) ∧
  ∀ s : State, s.part.resetAsserted = true →
    (∀ c : Instr, c ≠ .hardReset → c ≠ .resetnNegated → exec c s = .next s) ∧
      ∀ offset : BitVec 8, readRegister s.part offset = 0

/-! ## Engine Control -/

/-- R183, R185, R169, R174: an accepted START requests the 384 bytes at the configuration base with the fixed timeout. In
HALTED the unissued items and the pending notices are discarded, and a write in flight is abandoned. -/
def Obligations.StartRequestsTheBlock : Prop :=
  ∀ s : State, s.part.resetAsserted = false → s.part.posting.fault = none →
    s.part.engine.state = .off ∨ s.part.engine.state = .halted →
    leads .start s fun p =>
      p = { s.part with engine := p.engine, monitor := p.monitor, posting := p.posting } ∧
      p.engine = { s.part.engine with state := .loading, loadFault := .none, lastRefused := .none } ∧
      p.monitor = { s.part.monitor with
        block := some { purpose := .blockRead, address := s.part.engine.configBase.toNat, length := 384, timer := 0,
                        limit := 1048560, data := [] } } ∧
      (s.part.engine.state = .off → p.posting = s.part.posting) ∧
      (s.part.engine.state = .halted →
        p.posting.writeList = [] ∧ p.posting.ring = { s.part.posting.ring with pending := [] } ∧
        p.posting.cqs = s.part.posting.cqs ∧ p.posting.causes = s.part.posting.causes ∧
        p.posting.enables = s.part.posting.enables ∧
        (s.part.monitor.posting.isSome = true → p.posting.abandoned = true))

/-- R183: a refused CONTROL write changes nothing but the last refused operation: START outside OFF and HALTED, HALT outside
RUNNING, and any unknown operation. R129, R157, R182, R195: a rejected NOTIFY write changes nothing but the NOTIFY REJECTED
cause. -/
def Obligations.RegisterWriteRefused : Prop :=
  (∀ s : State, s.part.resetAsserted = false → s.part.settled = true →
     let refused (operation : LastRefused) : Part :=
       { s.part with engine := { s.part.engine with lastRefused := operation } }
     (s.part.engine.state ≠ .off → s.part.engine.state ≠ .halted → takes .start s (refused .start)) ∧
     (s.part.engine.state ≠ .running → takes .halt s (refused .halt)) ∧
     ∀ operation : BitVec 4, operation ≠ 1 → operation ≠ 2 → operation ≠ 3 →
       takes (.unknownControlOperation operation) s (refused .unknown)) ∧
  ∀ (s : State) (target : BitVec 4) (index : BitVec 16), s.part.resetAsserted = false → s.part.settled = true →
    let rejected : Part := { s.part with
      posting := { s.part.posting with causes := s.part.posting.causes ||| 0b1000000 } }
    let x := s.part.queue (Fin.ofNat 8 target.toNat)
    let q := s.part.cq (Fin.ofNat 4 target.toNat)
    let r := s.part.posting.ring
    let posting := s.part.engine.state = .running ∨ s.part.engine.state = .halting ∨ s.part.engine.state = .halted
    (8 ≤ target.toNat ∨ s.part.engine.state ≠ .running ∨ x.state = .disabled ∨ x.state = .error →
      takes (.postTail target index) s rejected) ∧
    (8 ≤ target.toNat ∨ s.part.engine.state ≠ .running ∨ x.state = .disabled →
      takes (.resetQueue target) s rejected) ∧
    (¬posting ∨ (4 ≤ target.toNat ∧ target.toNat ≠ 8) ∨
        (target.toNat < 4 ∧ (q.enabled = false ∨ q.size ≤ index.toNat ∨
          (q.tail + q.size - q.head) % q.size < (index.toNat + q.size - q.head) % q.size)) ∨
        (target.toNat = 8 ∧ (r.enabled = false ∨ r.size ≤ index.toNat ∨
          (r.tail + r.size - r.head) % r.size < (index.toNat + r.size - r.head) % r.size)) →
      takes (.consume target index) s rejected) ∧
    ∀ operation : BitVec 4, operation ≠ 1 → operation ≠ 2 → operation ≠ 3 →
      takes (.unrecognisedNotifyOperation operation target index) s rejected

/-- R189, R190, R43: an accepted HALT. The parked commands and the list command are completed HALTED, in order, ahead of what the
dropped steps and the trips hand over. The store is emptied, the read of the command path is discarded, HALT is offered to
every domain, and the channels of no domain or of a DISARMED one are FORCED(ENGINE) and at their safe levels, or wait for
them with ENGINE FORCE requests. -/
def Obligations.HaltStopsTheEngine : Prop :=
  ∀ s : State, s.part.awake = true → s.part.engine.state = .running →
    leads .halt s fun p =>
      p.engine = { s.part.engine with state := if p.haltComplete then .halted else .halting, lastRefused := .none } ∧
      (∀ c : Fin 32, p.timeline c = []) ∧
      (s.part.posting.writeList ++ s.part.haltedItems) <+: p.posting.writeList ∧
      (∀ q : Fin 8, p.queue q =
        if (s.part.queue q).state = .holding ∧ (s.part.queue q).hold ≠ none
        then { s.part.queue q with state := .active, hold := none } else s.part.queue q) ∧
      p.command.path = (match s.part.command.path with
        | .free => .free
        | .fetch q _ => .fetch q true
        | .list q h _ => .list q h true) ∧
      s.part.offered .halt p ∧
      s.part.engineForced p ∧
      p.clock = s.part.clock ∧ p.inputs = s.part.inputs

/-- R190: at the end of an event the engine leaves HALTING for HALTED, with ENGINE set, when no domain is TRIPPING, nothing
is left to write, no write is in flight, no notice is pending and the command path is free; otherwise, with no posting fault
met, Engine Control changes nothing. -/
def Obligations.HaltingEndsWhenDrained : Prop :=
  ∀ p : Part, p.posting.fault = none →
    p.settle =
      if p.engine.state = .halting ∧ (∀ d : Fin 8, (p.domain d).state ≠ .tripping) ∧ p.posting.writeList = [] ∧
          p.monitor.posting = none ∧ p.posting.ring.pending = [] ∧ p.command.path = .free
      then { p with engine := { p.engine with state := .halted },
                    posting := { p.posting with causes := p.posting.causes ||| 0b0100000 } }
      else p

/-- R186, R172: the tests of the Configuration Block, in order: the load fault of the first that fails, NONE if all pass. -/
def Obligations.BlockTestsInOrder : Prop :=
  ∀ b : Block,
    let ringSize (limit size : Nat) : Prop := ∃ n : Nat, 3 ≤ n ∧ 2 ^ n ≤ limit ∧ size = 2 ^ n
    let queuesPass := ∀ n : Fin 8, b.queues[n].enabled = true →
      ringSize 4096 b.queues[n].size ∧ b.queues[n].base % 64 = 0 ∧
        b.queues[n].base + 64 * b.queues[n].size ≤ 2 ^ 64 ∧ b.queues[n].quota ≤ 1024 ∧ b.queues[n].priority ≤ 1
    let cqsPass := ∀ n : Fin 4, b.cqs[n].enabled = true →
      ringSize 4096 b.cqs[n].size ∧ b.cqs[n].base % 16 = 0 ∧ b.cqs[n].base + 16 * b.cqs[n].size ≤ 2 ^ 64 ∧
        1 ≤ b.cqs[n].threshold ∧ b.cqs[n].threshold ≤ 255
    let ringPasses := b.noticeEnabled = true →
      ringSize 1024 b.noticeSize ∧ b.noticeBase % 32 = 0 ∧ b.noticeBase + 32 * b.noticeSize ≤ 2 ^ 64
    let bindingsPass := ∀ n : Fin 8, b.queues[n].enabled = true →
      ∃ h : b.queues[n].cq < 4, (b.cqs[b.queues[n].cq]'h).enabled = true
    let windowsPass := 1 ≤ b.timeout ∧ ∀ w : Fin 8, b.windows[w].length ≠ 0 →
      b.windows[w].base % 4096 = 0 ∧ b.windows[w].length % 4096 = 0 ∧
        b.windows[w].base + b.windows[w].length ≤ 2 ^ 64 ∧ b.windows[w].permissions.toNat < 4
    (b.magic ≠ 0x51432440 → b.loadFault = .badMagic) ∧
    (b.magic = 0x51432440 → b.version ≠ 1 → b.loadFault = .badVersion) ∧
    (b.magic = 0x51432440 → b.version = 1 →
      (¬(queuesPass ∧ cqsPass ∧ ringPasses) → b.loadFault = .badRing) ∧
      (queuesPass → cqsPass → ringPasses →
        (¬bindingsPass → b.loadFault = .badBinding) ∧
        (bindingsPass → (¬windowsPass → b.loadFault = .badWindow) ∧ (windowsPass → b.loadFault = .none))))

/-- R187, R126, R150, R160, R171: a Configuration Block that passes every test is loaded, the channels FORCED(ENGINE) are
unforced with their levels and waiting requests kept, and the engine is RUNNING. What a queue that the block does not enable
takes for its bound completion queue and priority class is the model's choice (log 10). -/
def Obligations.ValidBlockIsLoaded : Prop :=
  ∀ (s : State) (data : List Byte), s.part.resetAsserted = false → s.part.posting.fault = none →
    s.part.monitor.block.isSome = true → data.length = 384 → (readBlock data).loadFault = .none →
    leads (.configurationBlockArrives data) s fun p =>
      let b := readBlock data
      p.engine = { s.part.engine with state := .running } ∧
      p.monitor = { s.part.monitor with
        block := none, timeout := b.timeout,
        windows := b.windows.map fun w =>
          { base := w.base, length := w.length, allowRead := w.permissions.getLsbD 0,
            allowWrite := w.permissions.getLsbD 1 } } ∧
      (∀ q : Fin 8, p.queue q =
        { enabled := b.queues[q].enabled, base := b.queues[q].base, size := b.queues[q].size,
          cq := Fin.ofNat 4 b.queues[q].cq, urgent := b.queues[q].priority == 1, mask := b.queues[q].mask,
          authority := b.queues[q].authority, quota := b.queues[q].quota, holdWhenFull := b.queues[q].holdWhenFull,
          head := 0, tail := 0, state := if b.queues[q].enabled then .active else .disabled, hold := none }) ∧
      (p.command.path = .free ∧ p.command.urgentPointer = 7 ∧ p.command.normalPointer = 7) ∧
      (∀ n : Fin 4, p.cq n =
        { enabled := b.cqs[n].enabled, base := b.cqs[n].base, size := b.cqs[n].size, threshold := b.cqs[n].threshold,
          holdoff := b.cqs[n].holdoff, tail := 0, head := 0, phase := true, reserved := 0, unsignalled := 0,
          timer := none }) ∧
      p.posting.ring =
        { enabled := b.noticeEnabled, base := b.noticeBase, size := b.noticeSize, tail := 0, head := 0, phase := true,
          sequence := 0, pending := [], lost := 0 } ∧
      p.posting.writeList = [] ∧ p.posting.causes = s.part.posting.causes ∧
      p.posting.enables = s.part.posting.enables ∧
      (∀ c : Fin 32, p.channel c =
        if (s.part.channel c).force = some .engine then { s.part.channel c with force := none } else s.part.channel c) ∧
      p = { s.part with engine := p.engine, monitor := p.monitor, command := p.command, posting := p.posting,
                        output := { s.part.output with channels := p.output.channels } }

/-- R188, R169: a load that fails, by a block that fails a test, by a timeout or by a bus error response: the engine is
HALTED with the load fault, ENGINE is set, and the contexts, the windows and the channels stay as they were. What an
abandoned notice write took at issue is given back. -/
def Obligations.LoadFails : Prop :=
  ∀ s : State, s.part.resetAsserted = false → s.part.posting.fault = none →
    let failed (fault : LoadFault) : Part :=
      { s.part with
        engine := { s.part.engine with state := .halted, loadFault := fault }
        monitor := { s.part.monitor with block := none }
        posting := { s.part.posting with
          restore := none, causes := s.part.posting.causes ||| 0b0100000,
          ring := match s.part.posting.restore with
            | none => s.part.posting.ring
            | some (sequence, lost) =>
              { s.part.posting.ring with sequence := sequence, lost := min 65535 (s.part.posting.ring.lost + lost) } } }
    (∀ data : List Byte, s.part.monitor.block.isSome = true → data.length = 384 →
      (readBlock data).loadFault ≠ .none →
      takes (.configurationBlockArrives data) s (failed (readBlock data).loadFault)) ∧
    (∀ a : Access, s.part.monitor.block = some a → a.limit ≤ a.timer →
      takes (.accessTimeout .engineControl) s (failed .blockTimeout)) ∧
    (s.part.monitor.block.isSome = true → takes (.busErrorResponse .engineControl) s (failed .blockBusError))

/-- R166, R182, R184, R195: the registers. CONFIG BASE LOW and HIGH each set their half of the configuration base, the low one
without its six lowest bits, and writes to IDENT and STATE are ignored; STATE reads as the engine record and the other
registers as section 12.1 lays them out; a write to INT CAUSE clears each cause written as one and leaves the others, a
write to INT ENABLE sets every enable, and IRQn is asserted exactly while a cause is both set and enabled. -/
def Obligations.RegisterWindow : Prop :=
  (∀ (s : State) (value : BitVec 32), s.part.resetAsserted = false → s.part.settled = true →
     let withBase (base : BitVec 64) : Part := { s.part with engine := { s.part.engine with configBase := base } }
     takes (.registerWrite 0x08 value) s (withBase
       (BitVec.ofNat 64 (s.part.engine.configBase.toNat / 2 ^ 32 * 2 ^ 32 + value.toNat / 64 * 64))) ∧
     takes (.registerWrite 0x0C value) s (withBase
       (BitVec.ofNat 64 (value.toNat * 2 ^ 32 + s.part.engine.configBase.toNat % 2 ^ 32))) ∧
     takes (.registerWrite 0x00 value) s s.part ∧ takes (.registerWrite 0x14 value) s s.part) ∧
  (∀ p : Part, p.resetAsserted = false →
     let e := p.engine
     ((readRegister p 0x14).extractLsb' 0 4 = BitVec.ofNat 4 e.state.code ∧
       (readRegister p 0x14).extractLsb' 4 4 = BitVec.ofNat 4 e.loadFault.code ∧
       (readRegister p 0x14).extractLsb' 8 4 = BitVec.ofNat 4 (fatalReasonCode e.fatalReason) ∧
       (readRegister p 0x14).extractLsb' 12 4 = BitVec.ofNat 4 (fatalRingCode e.fatalRing) ∧
       (readRegister p 0x14).extractLsb' 16 4 = BitVec.ofNat 4 e.lastRefused.code ∧
       (readRegister p 0x14).extractLsb' 20 12 = 0) ∧
     readRegister p 0x00 = 0x24400001 ∧ readRegister p 0x04 = 0 ∧ readRegister p 0x10 = 0 ∧
     (readRegister p 0x0C ++ readRegister p 0x08 = e.configBase) ∧
     readRegister p 0x18 = p.posting.causes.setWidth 32 ∧ readRegister p 0x1C = p.posting.enables.setWidth 32) ∧
  (∀ (s : State) (value : BitVec 32), s.part.resetAsserted = false → s.part.settled = true →
    (∃ causes : BitVec 7,
      (∀ n : Fin 7, causes.getLsbD n.val = (s.part.posting.causes.getLsbD n.val && !value.getLsbD n.val)) ∧
      takes (.intCauseWrite value) s { s.part with posting := { s.part.posting with causes := causes } }) ∧
    ∃ enables : BitVec 7, (∀ n : Fin 7, enables.getLsbD n.val = value.getLsbD n.val) ∧
      takes (.intEnableWrite value) s { s.part with posting := { s.part.posting with enables := enables } }) ∧
  ∀ u : Posting, u.irqAsserted = true ↔ ∃ n : Fin 7, u.causes.getLsbD n.val = true ∧ u.enables.getLsbD n.val = true

/-- R192, R167, R168, R28, R62, R147, R43: a timeout or a bus error response on a posting write that was not abandoned takes the
engine to FATAL within the event, with the reason of its kind and ring. R167, R173: a posting write that no window allows is a
violation: nothing is in flight, and the fault is kept for Engine Control. R192: any fault kept takes the engine to FATAL at
the event's end. There, the store, the table, the write list and the pending list are emptied, the credits cleared, the reads
discarded, ENGINE FAULT is offered to every domain, the channels of no domain or of a DISARMED one are FORCED(ENGINE) and at
their safe levels or wait for them, and the reason and the ring are kept for STATE. That the fault of a violation is taken at
the end of its event is the model's choice (log 4). -/
def Obligations.PostingFaultIsFatal : Prop :=
  (∀ (s : State) (a : Access) (i : Instr) (f : AccessFault), s.part.resetAsserted = false →
     s.part.monitor.posting = some a → s.part.posting.abandoned = false →
     (i = .accessTimeout .postingUnit ∧ f = .timeout ∧ a.limit ≤ a.timer) ∨
       (i = .busErrorResponse .postingUnit ∧ f = .busError) →
     leads i s fun p =>
       let ring : FatalRing := match a.purpose with
         | .completionWrite n => .cq n
         | _ => .noticeRing
       let reason : FatalReason := match f, ring with
         | .busError, .cq _ => .completionWriteBusError
         | .busError, .noticeRing => .noticeWriteBusError
         | _, .cq _ => .completionWriteTimeout
         | _, .noticeRing => .noticeWriteTimeout
       Part.fatalOf { s.part with monitor := { s.part.monitor with posting := none } } reason ring p) ∧
  (∀ p : Part, p.isPosting = true → p.posting.fault = none → p.monitor.posting = none →
     (∀ (n : Fin 4) (c : Completion) (rest : List Item), p.posting.writeList = .completion n c :: rest →
       p.tailWritable n = false →
       p.issueNext = { p with posting := { p.posting with fault := some (.completionWriteViolation, .cq n) } }) ∧
     ∀ (n : Notice) (rest : List Item), p.posting.writeList = .notice n :: rest → p.noticeTailWritable = false →
       let r := p.posting.ring
       p.issueNext = { p with posting := { p.posting with
         fault := some (.noticeWriteViolation, .noticeRing), taken := some (r.sequence, r.lost)
         ring := { r with sequence := (r.sequence + 1) % 2 ^ 32, lost := 0 } } }) ∧
  ∀ (p : Part) (reason : FatalReason) (ring : FatalRing), p.posting.fault = some (reason, ring) →
    p.fatalOf reason ring p.settle

/-- With the next posting write allowed by the windows, no command but an answer or a fault of a posting write takes the
engine to FATAL. -/
def Obligations.FatalOnlyByAPostingWrite : Prop :=
  ∀ (i : Instr) (s s' : State), s.part.writesAllowed = true → s.part.engine.state ≠ .fatal →
    i ≠ .completionWriteAnswered → i ≠ .noticeWriteAnswered → i ≠ .accessTimeout .postingUnit →
    i ≠ .busErrorResponse .postingUnit → exec i s = .next s' → s'.part.engine.state ≠ .fatal

/-! ## Queues, fetches and the register writes that reach them -/

/-- R128, R130, R144, R145: POST TAIL and RESET QUEUE that are taken. POST TAIL sets the tail alone when the index is within the
ring; beyond it the parked command is completed with its last refusal, a fetch of the queue is discarded, the queue enters
ERROR with its head and tail kept, and QUEUE ERROR is handed over with reason BAD TAIL. RESET QUEUE completes and discards
likewise, and leaves the queue ACTIVE with head and tail 0 and its configuration parts kept. That the rest of the event is done
where the parked command's completion meets a window violation, with FATAL at its end, is the model's choice (log 4). -/
def Obligations.QueueNotifications : Prop :=
  (∀ (s : State) (q : Fin 8) (index : BitVec 16), s.part.resetAsserted = false → s.part.posting.fault = none →
     s.part.engine.state = .running →
     ((s.part.queue q).state = .active ∨ (s.part.queue q).state = .holding) →
     let x := s.part.queue q
     (index.toNat < x.size →
       takes (.postTail (BitVec.ofNat 4 q.val) index) s (s.part.modQueue q fun x => { x with tail := index.toNat })) ∧
     (x.size ≤ index.toNat →
       let completed : Part :=
         match x.hold with
         | none => s.part
         | some held =>
           (s.part.modQueue q fun x => { x with hold := none }).complete q held.header held.status held.aux
       let discarded : Part := completed.modCommand fun u =>
         { u with path := if Part.pathQueueOfFetch u.path = some q then .fetch q true else u.path }
       takes (.postTail (BitVec.ofNat 4 q.val) index) s
         ((discarded.modQueue q fun x => { x with state := .error }).notify
           (.queueError q .badTail x.head x.tail index.toNat x.hold.isSome)).settle)) ∧
  ∀ (s : State) (q : Fin 8), s.part.resetAsserted = false → s.part.engine.state = .running →
    (s.part.queue q).state ≠ .disabled →
    let x := s.part.queue q
    let completed : Part :=
      match x.hold with
      | none => s.part
      | some held => (s.part.modQueue q fun x => { x with hold := none }).complete q held.header held.status held.aux
    takes (.resetQueue (BitVec.ofNat 4 q.val)) s
      ((completed.modCommand fun u =>
        { u with path := if Part.pathQueueOfFetch u.path = some q then .fetch q true else u.path }).modQueue q fun x =>
          { x with head := 0, tail := 0, state := .active, hold := none }).settle

/-- R156, R157, R163: a CONSUME accepted in RUNNING, HALTING or HALTED sets the target's head to the index. On the notice ring,
pending notices then move to the write list, oldest first, while the ring has room; tails, phases, causes and counts stay.
In HALTING the engine is HALTED after it, with ENGINE set, exactly if nothing is left to drain (R190). -/
def Obligations.ConsumeMovesTheHead : Prop :=
  ∀ (s : State) (index : BitVec 16), s.part.resetAsserted = false →
    (s.part.engine.state = .running ∨ s.part.engine.state = .halting ∨ s.part.engine.state = .halted) →
    (∀ n : Fin 4, s.part.settled = true → (s.part.cq n).enabled = true → index.toNat < (s.part.cq n).size →
      (index.toNat + (s.part.cq n).size - (s.part.cq n).head) % (s.part.cq n).size ≤ (s.part.cq n).occupied →
      takes (.consume (BitVec.ofNat 4 n.val) index) s (s.part.modCq n fun q => { q with head := index.toNat })) ∧
    (s.part.writesAllowed = true → s.part.posting.ring.enabled = true →
      index.toNat < s.part.posting.ring.size →
      (index.toNat + s.part.posting.ring.size - s.part.posting.ring.head) % s.part.posting.ring.size ≤
        s.part.posting.ring.occupied →
      leads (.consume 8 index) s fun p =>
        let before := s.part.posting.ring
        let room := before.size - 1 -
          ((before.tail + before.size - index.toNat) % before.size + s.part.queuedNotices)
        let moved := min room before.pending.length
        let drained : Prop := s.part.engine.state = .halting ∧ (∀ d : Fin 8, (s.part.domain d).state ≠ .tripping) ∧
          s.part.posting.writeList = [] ∧ before.pending = [] ∧ s.part.monitor.posting = none ∧
          s.part.command.path = .free
        p = { s.part with engine := p.engine, posting := p.posting, monitor := p.monitor } ∧
        p.engine = (if drained then { s.part.engine with state := .halted } else s.part.engine) ∧
        p.posting.writeList = s.part.posting.writeList ++ (before.pending.take moved).map Item.notice ∧
        p.posting.ring.pending = before.pending.drop moved ∧
        p.posting.ring.head = index.toNat ∧ p.posting.ring.tail = before.tail ∧
        p.posting.ring.phase = before.phase ∧ p.posting.cqs = s.part.posting.cqs ∧
        p.posting.causes = (if drained then s.part.posting.causes ||| 0b0100000 else s.part.posting.causes))

/-- R132, R19, R151: a queue is eligible when it is ACTIVE with head different from tail and a credit of its completion queue
free, or HOLDING with a parked command for whose steps the pool and the queue's quota have room, and a table entry free if it
asks for one. R133: the queue the arbiter grants is eligible, is URGENT if any URGENT queue is eligible, and is the first
eligible one of its class counting upward from the queue after the class's pointer; there is none exactly when none is
eligible. -/
def Obligations.ArbiterGrantsInTurn : Prop :=
  ∀ p : Part,
    (∀ q : Fin 8, p.eligible q = true ↔
      let x := p.queue q
      let c := p.cq x.cq
      (x.state = .active ∧ x.head ≠ x.tail ∧
        c.reserved + p.waitingCompletions x.cq + (c.tail + c.size - c.head) % c.size < c.size - 1) ∨
      (x.state = .holding ∧ ∃ held : Held, x.hold = some held ∧
        (let steps := (inlineSteps held.command).length
         steps ≤ 1024 - p.storedSteps ∧ p.inUse q + steps ≤ x.quota ∧
           (held.header.flags.getLsbD 0 = true → ∃ i : Fin 64, p.entry i = none)))) ∧
    (p.granted = none ↔ ∀ q : Fin 8, p.eligible q = false) ∧
    ∀ q : Fin 8, p.granted = some q →
      let pointer := if (p.queue q).urgent then p.command.urgentPointer else p.command.normalPointer
      p.eligible q = true ∧
      ((p.queue q).urgent = false → ∀ q' : Fin 8, (p.queue q').urgent = true → p.eligible q' = false) ∧
      ∀ q' : Fin 8, (p.queue q').urgent = (p.queue q).urgent → p.eligible q' = true →
        (q.val + 7 - pointer.val) % 8 ≤ (q'.val + 7 - pointer.val) % 8

/-- R133, R135, R137, R173: a grant of an ACTIVE queue moves its class's pointer, reserves a credit and issues the read of the
64-byte record at head; a read that no window allows ends at once, with the credit returned and the queue in ERROR. R19,
R143: a grant of a HOLDING queue takes its parked command afresh at the present time; admitted, or refused with another
status, it leaves the hold slot and the queue is ACTIVE; refused again for want of room it stays, with the new refusal. -/
def Obligations.GrantFetchesOrRetries : Prop :=
  (∀ (s : State) (q : Fin 8), s.part.resetAsserted = false → s.part.posting.fault = none →
     s.part.engine.state = .running → s.part.command.path = .free → s.part.granted = some q →
     (s.part.queue q).state = .active →
     let x := s.part.queue q
     let moved : Part := s.part.modCommand fun u =>
       if x.urgent then { u with urgentPointer := q } else { u with normalPointer := q }
     if s.part.monitor.allows false (x.base + 64 * x.head) 64 then
       takes .fetchGrant s
         (((moved.modCq x.cq fun n => { n with reserved := n.reserved + 1 }).modMonitor fun m =>
           { m with command := some { purpose := .recordFetch, address := x.base + 64 * x.head, length := 64, timer := 0,
                                      limit := s.part.monitor.timeout * 16, data := [] } }).modCommand fun u =>
             { u with path := .fetch q false })
     else
       takes .fetchGrant s
         ((moved.modQueue q fun x => { x with state := .error }).notify
           (.queueError q .fetchViolation x.head x.tail 0 false)).settle) ∧
  ∀ (s : State) (q : Fin 8) (held : Held), s.part.awake = true → s.part.timelinesOrdered →
    s.part.engine.state = .running → s.part.command.path = .free → s.part.granted = some q →
    (s.part.queue q).state = .holding → (s.part.queue q).hold = some held →
    let moved : Part := s.part.modCommand fun u =>
      if (s.part.queue q).urgent then { u with urgentPointer := q } else { u with normalPointer := q }
    let freed : Part := moved.modQueue q fun x => { x with state := .active, hold := none }
    let steps := inlineSteps held.command
    match (s.part.admissionTable q held.header (countValid held.command) steps).find? fun row => row.1 with
    | none => leads .fetchGrant s fun p => freed.admits q held.header steps p
    | some (_, status, aux) =>
      takes .fetchGrant s
        (if status = .noSpace ∨ status = .noTracking
         then moved.modQueue q fun x => { x with hold := some { held with status := status, aux := aux } }
         else freed.complete q held.header status aux)

/-- R136, R139, R140, R197, section 12.3: a record that arrives is taken as the row of its kind byte, with the fields read from it;
one whose kind byte is none of the twenty is completed BAD KIND with that byte; and a configuration command from a queue that
lacks its authority class is completed NO AUTHORITY with the class missing as aux, and nothing else is done with it. That a
fetched command's row is the arrival of its record is the model's (log 7). -/
def Obligations.CommonChecks : Prop :=
  (∀ (s : State) (data : List Byte), data.length = 64 →
     (let byte (o : Nat) : BitVec 8 := BitVec.ofNat 8 (field data o 1)
      let half (o : Nat) : BitVec 16 := BitVec.ofNat 16 (field data o 2)
      let word (o : Nat) : BitVec 32 := BitVec.ofNat 32 (field data o 4)
      let long (o : Nat) : BitVec 64 := BitVec.ofNat 64 (field data o 8)
      let h : Header := { flags := byte 1, id := half 2, time := long 8 }
      let spells (kind : Nat) (i : Instr) : Prop := field data 0 1 = kind → exec (.recordArrives data) s = exec i s
      spells 0x01 (.schedule h
        { stepCount := byte 16
          entries := [24, 32, 40, 48, 56].map fun o =>
            { offset := word o, tag := half (o + 4), channel := byte (o + 6), action := byte (o + 7) } }) ∧
      spells 0x02 (.scheduleRepeating h
        { channel := byte 16, levelA := byte 17, levelB := byte 18, tag := half 20, cycleCount := half 22,
          offset := word 24, intervalAfterA := word 28, intervalAfterB := word 32 }) ∧
      spells 0x03 (.scheduleList h { stepCount := half 16, listAddress := long 24 }) ∧
      spells 0x04 (.cancelTag h (half 16)) ∧ spells 0x05 (.cancelChannel h (byte 16)) ∧
      spells 0x06 (.configureChannel h { channel := byte 16, safeLevel := byte 17, idleLevel := byte 18 }) ∧
      spells 0x07 (.configurePair h { pair := byte 16, enable := byte 17, polarity := byte 18, deadTime := half 20 }) ∧
      spells 0x08 (.queryChannel h (byte 16)) ∧
      spells 0x09 (.configureDomain h
        { domain := byte 16, disposition := byte 17, members := word 20, sources := word 24 }) ∧
      spells 0x0A (.loadSafeSequence h
        { domain := byte 16, entryCount := byte 17
          entries := [24, 28, 32, 36, 40, 44, 48, 52].map fun o =>
            { offset := BitVec.ofNat 24 (field data o 3), channel := byte (o + 3) } }) ∧
      spells 0x0B (.armDomain h (byte 16)) ∧ spells 0x0C (.disarmDomain h (byte 16)) ∧
      spells 0x0D (.tripDomain h (byte 16)) ∧ spells 0x0E (.releaseDomain h (byte 16)) ∧
      spells 0x0F (.queryDomain h (byte 16)) ∧
      spells 0x10 (.configureFaultInput h
        { input := byte 16, flags := byte 17, polarity := byte 18, mode := byte 19, sampleInterval := half 20,
          filterCount := byte 22 }) ∧
      spells 0x11 (.clearFaultLatch h (byte 16)) ∧
      spells 0x12 (.configureSupervisor h
        { enable := byte 16, failCount := byte 17, failAction := byte 18, windowLength := half 20, lowerLimit := word 24,
          upperLimit := word 28, referenceTimeout := word 32 }) ∧
      spells 0x13 (.restorePrimaryClock h) ∧ spells 0x14 (.readTime h)) ∧
     ∀ q : Fin 8, s.part.ready q = true → (field data 0 1 = 0 ∨ 0x14 < field data 0 1) →
       takes (.recordArrives data) s
         ((s.part.taken q).complete q (readHeader data) .badKind (field data 0 1))) ∧
  ∀ (i : Instr) (h : Header) (cmd : Command) (s : State) (q : Fin 8), i.record? = some (h, cmd) →
    s.part.ready q = true →
    ∀ cls : Fin 4,
      (match cmd with
        | .configureChannel _ | .configurePair _ => cls = 0
        | .configureDomain _ | .loadSafeSequence _ | .armDomain _ | .disarmDomain _ | .releaseDomain _ => cls = 1
        | .configureFaultInput _ | .clearFaultLatch _ => cls = 2
        | .configureSupervisor _ | .restorePrimaryClock => cls = 3
        | _ => False) →
      (s.part.queue q).authority.getLsbD cls.val = false →
      takes i s ((s.part.taken q).complete q h .noAuthority (cls.val + 1))

/-- R137, R138, R142, R147, R176, R177: the command path's reads that end without being processed. A discarded read still ends, by
its answer, a timeout or a bus error: the path is freed, the credit of a record fetch is returned, and nothing else is
done. A live record fetch that ends in a timeout or a bus error returns its credit and puts its queue in ERROR with QUEUE
ERROR handed over; a live step list read completes its command ACCESS FAULT and the queue goes on. An answer that names no
access in flight is discarded. The ACCESS FAULT completion's value, the present time, is the model's (log 8). -/
def Obligations.ReadsThatEndWithoutTheirData : Prop :=
  (∀ (s : State) (a : Access) (i : Instr), s.part.resetAsserted = false → s.part.monitor.command = some a →
     let freed : Part :=
       { s.part with monitor := { s.part.monitor with command := none }, command := { s.part.command with path := .free } }
     (∀ q : Fin 8, s.part.command.path = .fetch q true →
       ((i.record?).isSome = true ∨ (∃ data : List Byte, data.length = 64 ∧ i = .recordArrives data) ∨
         (a.limit ≤ a.timer ∧ i = .accessTimeout .commandUnit) ∨ i = .busErrorResponse .commandUnit) →
       takes i s (freed.modCq (s.part.queue q).cq fun n => { n with reserved := n.reserved - 1 }).settle) ∧
     ∀ (q : Fin 8) (h : Header), s.part.command.path = .list q h true →
       ((∃ data : List Byte, data.length = a.length ∧ i = .listArrives data) ∨
         (a.limit ≤ a.timer ∧ i = .accessTimeout .stepScheduler) ∨ i = .busErrorResponse .stepScheduler) →
       takes i s freed.settle) ∧
  (∀ (s : State) (a : Access) (q : Fin 8) (busError : Bool), s.part.resetAsserted = false →
     s.part.monitor.command = some a → (busError = false → a.limit ≤ a.timer) →
     let ended (owner : AccessOwner) : Instr := if busError then .busErrorResponse owner else .accessTimeout owner
     let freed : Part :=
       { s.part with monitor := { s.part.monitor with command := none }, command := { s.part.command with path := .free } }
     (s.part.command.path = .fetch q false →
       takes (ended .commandUnit) s
         ((((freed.modCq (s.part.queue q).cq fun n => { n with reserved := n.reserved - 1 }).modQueue q fun x =>
           { x with state := .error }).notify
             (.queueError q (if busError then .fetchBusError else .fetchTimeout) (s.part.queue q).head
               (s.part.queue q).tail 0 false)).settle)) ∧
     ∀ h : Header, s.part.command.path = .list q h false →
       takes (ended .stepScheduler) s (freed.complete q h .accessFault (if busError then 3 else 2)).settle) ∧
  ∀ s : State, s.part.settled = true → takes .lateAnswer s s.part

/-- R173: an access is allowed exactly when it stays within the address space and one window with a length covers every byte
of it and holds the permission of its kind. -/
def Obligations.WindowCheck : Prop :=
  ∀ (m : Monitor) (write : Bool) (address length : Nat),
    m.allows write address length = true ↔
      address + length ≤ 2 ^ 64 ∧ ∃ w : Fin 8, 0 < m.windows[w].length ∧ m.windows[w].base ≤ address ∧
        address + length ≤ m.windows[w].base + m.windows[w].length ∧
        (if write then m.windows[w].allowWrite else m.windows[w].allowRead) = true

/-! ## The Posting Unit -/

/-- R151, R153, R169: a completion handed over passes its credit from the reserved ones to the waiting ones and joins the end of the
write list; while the Posting Unit is not posting it is discarded. R153, R154, R162, R164, R198: the oldest item of the
write list is issued when none is in flight: a completion of 16 bytes at its queue's tail with the queue's phase; a notice
of 32 bytes at the ring's tail with the sequence number, the lost count and the phase, after which the number has risen by
one and the lost count is 0. -/
def Obligations.CompletionsAreHandedOverAndIssued : Prop :=
  (∀ (p : Part) (n : Fin 4) (c : Completion),
     (p.isPosting = false → p.handCompletion n c = p) ∧
     (p.isPosting = true →
       let p' := p.handCompletion n c
       p'.posting.writeList = p.posting.writeList ++ [.completion n c] ∧
       (p'.cq n) = { p.cq n with reserved := (p.cq n).reserved - 1 } ∧
       (∀ m : Fin 4, m ≠ n → p'.cq m = p.cq m) ∧
       p'.waitingCompletions n = p.waitingCompletions n + 1 ∧
       p'.posting.ring.pending = p.posting.ring.pending ∧ p'.posting.causes = p.posting.causes ∧
       p' = { p with posting := p'.posting, monitor := { p.monitor with posting := p'.monitor.posting } })) ∧
  ∀ p : Part, p.isPosting = true → p.posting.fault = none → p.monitor.posting = none →
    (∀ (n : Fin 4) (c : Completion) (rest : List Item), p.posting.writeList = .completion n c :: rest →
      p.tailWritable n = true →
      p.issueNext = { p with monitor := { p.monitor with
        posting := some { purpose := .completionWrite n, address := (p.cq n).base + 16 * (p.cq n).tail, length := 16,
                          timer := 0, limit := p.monitor.timeout * 16, data := completionBytes c (p.cq n).phase } } }) ∧
    ∀ (n : Notice) (rest : List Item), p.posting.writeList = .notice n :: rest → p.noticeTailWritable = true →
      let r := p.posting.ring
      p.issueNext = { p with
        monitor := { p.monitor with
          posting := some { purpose := .noticeWrite, address := r.base + 32 * r.tail, length := 32, timer := 0,
                            limit := p.monitor.timeout * 16, data := noticeBytes n r.sequence r.lost r.phase } }
        posting := { p.posting with
          taken := some (r.sequence, r.lost), ring := { r with sequence := (r.sequence + 1) % 2 ^ 32, lost := 0 } } }

/-- R161: a notice handed over is discarded, joins the write list, joins the pending list, or is counted lost. -/
def Obligations.HandedOverNotice : Prop :=
  ∀ (p : Part) (n : Notice),
    let p' := p.handNotice n
    let r := p.posting.ring
    let room := (r.tail + r.size - r.head) % r.size + p.queuedNotices < r.size - 1
    (p.isPosting = false ∨ r.enabled = false → p' = p) ∧
    (p.isPosting = true → r.enabled = true →
      (room → r.pending = [] →
        p'.posting.writeList = p.posting.writeList ++ [.notice n] ∧ p'.posting.ring.pending = [] ∧
        p'.queuedNotices = p.queuedNotices + 1 ∧ p'.posting.cqs = p.posting.cqs ∧
        p' = { p with posting := p'.posting, monitor := { p.monitor with posting := p'.monitor.posting } }) ∧
      (¬room ∨ r.pending ≠ [] → r.pending.length < 16 →
        p' = { p with posting := { p.posting with ring := { r with pending := r.pending ++ [n] } } }) ∧
      (¬room ∨ r.pending ≠ [] → 16 ≤ r.pending.length →
        p' = { p with posting := { p.posting with ring :=
          { r with lost := if r.lost < 65535 then r.lost + 1 else r.lost } } }))

/-- R154, R158, R159, R162, R165, R169: the answer of a posting write. A completion is posted: the tail advances, with the phase
where it returns to 0, and the posting is counted for coalescing; a notice is posted and NOTICE is set; the answer to an
abandoned write is dropped; the next item is then issued. At a holdoff expiry the timer stops, and if completions are
unsignalled the queue's cause is set and their count is 0. -/
def Obligations.PostedRecordsAndInterrupts : Prop :=
  (∀ (s : State) (a : Access), s.part.resetAsserted = false → s.part.monitor.posting = some a →
     let ended : Part := { s.part with
       monitor := { s.part.monitor with posting := none }
       posting := { s.part.posting with abandoned := false, taken := none } }
     (∀ n : Fin 4, a.purpose = .completionWrite n → s.part.posting.abandoned = false →
       let q := s.part.cq n
       let tail := if q.tail + 1 = q.size then 0 else q.tail + 1
       let signals := q.unsignalled + 1 = q.threshold
       let posted : CompletionContext := { q with
         tail := tail, phase := if tail = 0 then !q.phase else q.phase
         unsignalled := if signals then 0 else q.unsignalled + 1
         timer := if signals then none else if 0 < q.holdoff ∧ q.timer = none then some (q.holdoff * 1024) else q.timer }
       takes .completionWriteAnswered s
         ((ended.modCq n fun _ => posted).modPosting fun u => { u with
           writeList := u.writeList.tail
           causes := if signals then u.causes ||| 1#7 <<< n.val else u.causes }).issueNext.settle) ∧
     (a.purpose = .noticeWrite → s.part.posting.abandoned = false →
       let r := s.part.posting.ring
       let tail := if r.tail + 1 = r.size then 0 else r.tail + 1
       takes .noticeWriteAnswered s
         (ended.modPosting fun u => { u with
           writeList := u.writeList.tail, causes := u.causes ||| 0b0010000
           ring := { r with tail := tail, phase := if tail = 0 then !r.phase else r.phase } }).issueNext.settle) ∧
     (∀ n : Fin 4, a.purpose = .completionWrite n → s.part.posting.abandoned = true →
       takes .completionWriteAnswered s ended.issueNext.settle) ∧
     (a.purpose = .noticeWrite → s.part.posting.abandoned = true →
       takes .noticeWriteAnswered s ended.issueNext.settle)) ∧
  ∀ (s : State) (n : Fin 4), s.part.resetAsserted = false → s.part.settled = true → (s.part.cq n).timer = some 0 →
    takes (.holdoffExpiry n) s
      ((s.part.modCq n fun q => { q with timer := none, unsignalled := 0 }).modPosting fun u =>
        { u with causes := if 0 < (s.part.cq n).unsignalled then u.causes ||| 1#7 <<< n.val else u.causes })

/-! ## The Step Scheduler and the Completion Tracker -/

/-- R7 to R16: a SCHEDULE or SCHEDULE REPEATING that no check refuses is admitted whole. -/
def Obligations.ScheduleIsAdmittedWhole : Prop :=
  ∀ (i : Instr) (h : Header) (cmd : Command) (s : State) (q : Fin 8),
    ((∃ b, i = .schedule h b ∧ cmd = .schedule b) ∨ ∃ b, i = .scheduleRepeating h b ∧ cmd = .scheduleRepeating b) →
    s.part.ready q = true → s.part.timelinesOrdered →
    let T := s.part.taken q
    ((T.admissionTable q h (countValid cmd) (inlineSteps cmd)).find? fun row => row.1) = none →
    leads i s fun p => T.admits q h (inlineSteps cmd) p

/-- R7, R14, R18: the first check that fails refuses a SCHEDULE or SCHEDULE REPEATING with its status and aux. On a
hold-when-full queue a refusal for want of room is parked instead, unless the command has more steps than the quota. -/
def Obligations.ScheduleIsRefusedOrParked : Prop :=
  ∀ (i : Instr) (h : Header) (cmd : Command) (s : State) (q : Fin 8) (status : Status) (aux : Nat),
    ((∃ b, i = .schedule h b ∧ cmd = .schedule b) ∨ ∃ b, i = .scheduleRepeating h b ∧ cmd = .scheduleRepeating b) →
    s.part.ready q = true →
    let T := s.part.taken q
    let steps := inlineSteps cmd
    ((T.admissionTable q h (countValid cmd) steps).find? fun row => row.1) = some (true, status, aux) →
    takes i s
      (if (T.queue q).holdWhenFull = true ∧
          (status = .noTracking ∨ (status = .noSpace ∧ steps.length ≤ (T.queue q).quota))
       then T.modQueue q fun x => { x with
         state := .holding, hold := some { header := h, command := cmd, status := status, aux := aux } }
       else T.complete q h status aux)

/-- R8, R17, R142, R173: SCHEDULE LIST is refused at check 1, or issues the read of its list, which keeps the command path, or is
completed ACCESS FAULT when no window allows that read. Checks 2 to 7 are made when the list arrives; the command is then
admitted whole or refused, and never parked. The ACCESS FAULT completion's value, the present time, is the model's (log 8). -/
def Obligations.ScheduleList : Prop :=
  (∀ (h : Header) (b : ListBody) (s : State) (q : Fin 8), s.part.ready q = true →
     let T := s.part.taken q
     let address := b.listAddress.toNat
     let length := 8 * b.stepCount.toNat
     takes (.scheduleList h b) s
       (if b.stepCount.toNat = 0 ∨ 256 < b.stepCount.toNat ∨ address % 8 ≠ 0 then T.complete q h .badField 0
        else if T.monitor.allows false address length then
          { T with
            monitor := { T.monitor with
              command := some { purpose := .listRead, address := address, length := length, timer := 0,
                                limit := T.monitor.timeout * 16, data := [] } }
            command := { T.command with path := .list q h false } }
        else T.complete q h .accessFault 1)) ∧
  ∀ (data : List Byte) (s : State) (q : Fin 8) (h : Header) (a : Access), s.part.awake = true →
    s.part.engine.state = .running → s.part.timelinesOrdered → s.part.command.path = .list q h false →
    s.part.monitor.command = some a → data.length = a.length →
    let T := s.part.freePath
    let steps := (readStepList data (data.length / 8)).map rawOfEntry
    match (T.admissionTable q h true steps).find? fun row => row.1 with
    | none => leads (.listArrives data) s fun p => T.admits q h steps p
    | some (_, status, aux) => takes (.listArrives data) s (T.complete q h status aux)

/-- R24, R25, R27: an accepted cancel removes the steps it selects from every timeline it reaches and leaves the others in
their order; its own completion, the last one handed over, carries their number. The value of a refused CANCEL CHANNEL's
completion, the present time, is the model's (log 8). -/
def Obligations.CancelRemovesTheSelected : Prop :=
  ∀ (s : State) (q : Fin 8) (h : Header), s.part.ready q = true →
    let T := s.part.taken q
    let cancelled (selects : Fin 32 → Step → Bool) (p : Part) : Prop :=
      p = { T with timelines := p.timelines, table := p.table, posting := p.posting, monitor := p.monitor } ∧
      (∀ c : Fin 32, p.timeline c = (T.timeline c).filter fun x => !selects c x) ∧
      p.posting.writeList.getLast? = some (.completion (T.queue q).cq
        { queue := q, id := h.id, status := .ok, aux := 0, drops := 0,
          value := ((List.finRange 32).map fun c => ((T.timeline c).filter (selects c)).length).sum })
    (∀ tag : BitVec 16, leads (.cancelTag h tag) s (cancelled fun _ x => x.origin == q && x.tag == tag)) ∧
    ∀ channel : BitVec 8,
      (32 ≤ channel.toNat → takes (.cancelChannel h channel) s (T.complete q h .badField 0)) ∧
      (channel.toNat < 32 →
        ((T.queue q).mask.getLsbD channel.toNat = false →
          takes (.cancelChannel h channel) s (T.complete q h .noAuthority 0)) ∧
        ((T.queue q).mask.getLsbD channel.toNat = true →
          leads (.cancelChannel h channel) s
            (cancelled fun c x => c.val == channel.toNat && decide (h.time.toNat ≤ x.effective))))

/-- R20, R21, R22: a due-time event of a SCHEDULED channel whose pair is disabled. The level becomes the one the last step of the
batch asks for, the batch's single steps are gone, and its repeating steps have counted one transition and stand behind the
steps of their new time. -/
def Obligations.DueStepsAreExecuted : Prop :=
  ∀ (s : State) (c : Fin 32) (t : Nat), s.part.awake = true → s.part.timelinesOrdered →
    (s.part.pair (pairOf c)).enabled = false → (s.part.channel c).force = none →
    (s.part.timeline c).head?.map Step.effective = some t → t ≤ s.part.clock.time →
    let part := batchAt t (s.part.timeline c)
    let next (x : Step) : Option Step :=
      match x.body with
      | .single _ => none
      | .repeating r =>
        match r.next with
        | .a => some { x with body := .repeating { r with next := .b }, effective := min (t + r.afterA) maxTime }
        | .b =>
          if r.cycles ≤ 1 then none
          else some { x with
            body := .repeating { r with next := .a, cycles := r.cycles - 1 }
            effective := min (t + r.afterB) maxTime }
    ∀ tripWaits : Bool, leads (.dueTimeEvent { channel := c, tripWaits := tripWaits }) s fun p =>
      (∀ c' : Fin 32, p.channel c' =
        if c' = c then { s.part.channel c with level := finalLevel (s.part.channel c).level part, waiting := none }
        else s.part.channel c') ∧
      (∀ t' : Nat, batchAt t' (p.timeline c) =
        (if t' = t then [] else batchAt t' (s.part.timeline c)) ++ batchAt t' (part.filterMap next)) ∧
      (∀ c' : Fin 32, c' ≠ c → p.timeline c' = s.part.timeline c') ∧
      p.output.pairs = s.part.output.pairs ∧ p.clock = s.part.clock ∧ p.domains = s.part.domains ∧
      p.inputs = s.part.inputs ∧ p.command = s.part.command

/-- R20, R21, R36, R37, R41: a due-time event of an enabled pair whose batch has steps on channel c alone and asks c for the
active level. The partner active, or holding a waiting active-going request at the dead-time end: BLOCKED, the steps
dropped, and a domain of both channels that is ARMED and selects CONTENTION trips; but where a trip of that domain at the
same time value is yet to be taken (R78; the row's operand, log 21), it does not trip by CONTENTION: the pulse waits for
that trip. The partner inactive and dead time running: DEFERRED, every step up to the dead-time end taking it. Otherwise
APPLIED. -/
def Obligations.ActiveGoingStepMeetsTheGuard : Prop :=
  ∀ (s : State) (c : Fin 32) (t : Nat), s.part.awake = true →
    let k := pairOf c
    let pair := s.part.pair k
    let partner := s.part.channel (partnerOf c)
    let part := batchAt t (s.part.timeline c)
    pair.enabled = true → (s.part.channel c).force = none →
    (s.part.timeline c).head?.map Step.effective = some t → t ≤ s.part.clock.time →
    (partner.force ≠ none ∨ ∀ x ∈ s.part.timeline (partnerOf c), t < x.effective) →
    finalLevel (s.part.channel c).level part = pair.polarity.activeLevel →
    (s.part.channel c).level ≠ pair.polarity.activeLevel →
    let blocked : Prop := partner.level = pair.polarity.activeLevel ∨
      (pair.deadTimeEnd ≤ s.part.clock.time ∧ ∃ w, partner.waiting = some w ∧ w.level = pair.polarity.activeLevel)
    ∀ tripWaits : Bool, leads (.dueTimeEvent { channel := c, tripWaits := tripWaits }) s fun p =>
      (blocked →
        (∀ x ∈ p.timeline c, x.effective ≠ t) ∧
        (tripWaits = false →
          (∀ d : Fin 8, (s.part.domain d).members.getLsbD c.val = true → (s.part.domain d).sources.getLsbD 17 = false) →
          p.timeline c = (s.part.timeline c).filter (fun x => x.effective != t) ∧
          (p.channel c).level = (s.part.channel c).level ∧ p.domains = s.part.domains) ∧
        ∀ d : Fin 8, s.part.domainsApart → (s.part.domain d).members.getLsbD c.val = true →
          (s.part.domain d).state = .armed →
          (tripWaits = false → (s.part.domain d).sources.getLsbD 17 = true →
            ((p.domain d).state = .tripping ∨ (p.domain d).state = .tripped) ∧
              (p.domain d).causes = 1#21 <<< 17 ∧ (p.domain d).tripTime = s.part.clock.time) ∧
          (tripWaits = true →
            p.domain d = { s.part.domain d with contentionWaits := true } ∧
            p.timeline c = (s.part.timeline c).filter (fun x => x.effective != t) ∧
            (p.channel c).level = (s.part.channel c).level)) ∧
      (¬blocked → s.part.clock.time < pair.deadTimeEnd →
        p.timeline c = (s.part.timeline c).map (fun x =>
          if x.effective ≤ pair.deadTimeEnd then { x with effective := pair.deadTimeEnd } else x) ∧
        (p.channel c).level = (s.part.channel c).level ∧ p.table = s.part.table) ∧
      (¬blocked → pair.deadTimeEnd ≤ s.part.clock.time →
        (p.channel c).level = pair.polarity.activeLevel ∧ p.timeline c = applyBatch t (s.part.timeline c)) ∧
      (∀ c' : Fin 32, c' ≠ c →
        (∀ d : Fin 8, (s.part.domain d).members.getLsbD c.val = true →
          (s.part.domain d).members.getLsbD c'.val = false) →
        p.timeline c' = s.part.timeline c') ∧
      p.clock = s.part.clock ∧ p.inputs = s.part.inputs ∧ p.command = s.part.command

/-- R55: the final status of a deferred command, from its executed count, its total and its late flag alone; a command of one
step is never PARTIAL, and no report changes the late flag. -/
def Obligations.FinalStatusOfADeferredCommand : Prop :=
  ∀ e : TableEntry, e.executed ≤ e.total →
    (e.executed = e.total → e.late = false → e.status = .ok) ∧
    (e.executed = e.total → e.late = true → e.status = .late) ∧
    (1 ≤ e.executed → e.executed < e.total → e.status = .partially) ∧
    (e.executed = 0 → 1 ≤ e.total → e.status = .abandoned) ∧
    (e.total = 1 → e.status ≠ .partially) ∧
    ∀ (outcome : StepOutcome) (time : Nat), (e.report outcome time).late = e.late

/-- R54, R56: the report of a step that leaves the store. The entry counts it; with the last one it is freed and its completion
handed over, with the status, the executed count, the drop causes and the time of this report. -/
def Obligations.TrackerTakesAReport : Prop :=
  ∀ (p : Part) (x : Step) (i : Fin 64) (e : TableEntry) (outcome : StepOutcome),
    x.link = some i → p.entry i = some e → 1 ≤ e.remaining →
    let executed := if outcome = .executed then e.executed + 1 else e.executed
    let drops := match outcome with
      | .executed => e.drops
      | .dropped cause => e.drops ||| cause.mask
    p.resolve outcome x =
      if e.remaining = 1 then
        (p.setEntry i none).handCompletion e.cq
          { queue := e.queue, id := e.id, aux := executed, drops := drops, value := p.clock.time,
            status := if executed = e.total then (if e.late then .late else .ok)
                      else if executed = 0 then .abandoned else .partially }
      else
        p.setEntry i (some { e with
          remaining := e.remaining - 1, executed := executed, drops := drops, lastTime := p.clock.time })

/-! ## The Output Stage -/

/-- R33: at a disabled pair every requested part is applied at once, with no waiting request left behind; a channel without a
part, and the pair record, stay as they are. -/
def Obligations.DisabledPairAppliesAtOnce : Prop :=
  ∀ (v : PairView) (t : Nat) (lower upper : Option Request), v.pair.enabled = false →
    let r := v.batch t lower upper
    r.lower = lower.map (fun _ => .applied) ∧ r.upper = upper.map (fun _ => .applied) ∧
      r.view.lower = (match lower with
        | none => v.lower
        | some q => { v.lower with level := q.level, waiting := none }) ∧
      r.view.upper = (match upper with
        | none => v.upper
        | some q => { v.upper with level := q.level, waiting := none }) ∧
      r.view.pair = v.pair

/-- R34 to R37: a batch with a scheduled part for each channel of an enabled pair, neither channel waiting and not both active.
Both going active: both BLOCKED, and nothing changes. One leaving the active level, the other going active, whichever is
which: the first applied with the dead-time end at t plus D, held at 2^64-1, and the second deferred to it, or applied where
it is not after t. One going active, the other keeping the active level, or inactive and asking for an inactive level: the
other applied, and the first BLOCKED by an active other, deferred while dead time runs, and applied otherwise, the pair record
as it was. Neither going active: both applied, with the dead-time end moved exactly if one leaves the active level. -/
def Obligations.GuardTakesBothScheduledParts : Prop :=
  ∀ (v : PairView) (t : Nat) (lo up : Level), v.pair.enabled = true → v.lower.waiting = none →
    v.upper.waiting = none →
    ¬(v.lower.level = v.pair.polarity.activeLevel ∧ v.upper.level = v.pair.polarity.activeLevel) →
    let active := v.pair.polarity.activeLevel
    let r := v.batch t (some { level := lo, kind := .step }) (some { level := up, kind := .step })
    let newEnd := min (t + v.pair.deadTime) (2 ^ 64 - 1)
    let ended : Pair := { v.pair with deadTimeEnd := newEnd }
    let lower : Channel := { v.lower with level := lo }
    let upper : Channel := { v.upper with level := up }
    (lo = active → v.lower.level ≠ active → up = active → v.upper.level ≠ active →
      r.lower = some .blocked ∧ r.upper = some .blocked ∧ r.view = v) ∧
    (lo ≠ active → v.lower.level = active → up = active →
      r.lower = some .applied ∧
      (t < newEnd → r.upper = some (.deferred newEnd) ∧ r.view = { lower := lower, upper := v.upper, pair := ended }) ∧
      (newEnd ≤ t → r.upper = some .applied ∧ r.view = { lower := lower, upper := upper, pair := ended })) ∧
    (up ≠ active → v.upper.level = active → lo = active →
      r.upper = some .applied ∧
      (t < newEnd → r.lower = some (.deferred newEnd) ∧ r.view = { lower := v.lower, upper := upper, pair := ended }) ∧
      (newEnd ≤ t → r.lower = some .applied ∧ r.view = { lower := lower, upper := upper, pair := ended })) ∧
    (lo = active → v.lower.level ≠ active → (up = active ↔ v.upper.level = active) →
      r.upper = some .applied ∧
      (up = active → r.lower = some .blocked ∧ r.view = v) ∧
      (up ≠ active → t < v.pair.deadTimeEnd →
        r.lower = some (.deferred v.pair.deadTimeEnd) ∧ r.view = { v with upper := upper }) ∧
      (up ≠ active → v.pair.deadTimeEnd ≤ t →
        r.lower = some .applied ∧ r.view = { v with lower := lower, upper := upper })) ∧
    (up = active → v.upper.level ≠ active → (lo = active ↔ v.lower.level = active) →
      r.lower = some .applied ∧
      (lo = active → r.upper = some .blocked ∧ r.view = v) ∧
      (lo ≠ active → t < v.pair.deadTimeEnd →
        r.upper = some (.deferred v.pair.deadTimeEnd) ∧ r.view = { v with lower := lower }) ∧
      (lo ≠ active → v.pair.deadTimeEnd ≤ t →
        r.upper = some .applied ∧ r.view = { v with lower := lower, upper := upper })) ∧
    ((lo = active → v.lower.level = active) → (up = active → v.upper.level = active) →
      r.lower = some .applied ∧ r.upper = some .applied ∧
      r.view = { lower := lower, upper := upper, pair :=
        if (v.lower.level = active ∧ lo ≠ active) ∨ (v.upper.level = active ∧ up ≠ active) then ended else v.pair })

/-- R40: a dead-time expiry applies each waiting request of the pair whose partner is inactive, the lower channel first; a
DOMAIN SAFE one applied marks its part DONE, and a TRIPPING domain all of whose parts are DONE enters TRIPPED. -/
def Obligations.DeadTimeExpiryAppliesTheWaiting : Prop :=
  ∀ (s : State) (k : Fin 16), s.part.awake = true → (s.part.pair k).deadTimeEnd ≤ s.part.clock.time →
    let lo := s.part.channel (channelOf k .lower)
    let up := s.part.channel (channelOf k .upper)
    lo.waiting ≠ none ∨ up.waiting ≠ none →
    let expire (own partner : Channel) : Channel :=
      match own.waiting with
      | some w =>
        if (s.part.pair k).enabled = true ∧ partner.level = (s.part.pair k).polarity.activeLevel then own
        else { own with level := w.level, waiting := none }
      | none => own
    leads (.deadTimeExpiry k) s fun p =>
      p.channel (channelOf k .lower) = expire lo up ∧
      p.channel (channelOf k .upper) = expire up (expire lo up) ∧
      (∀ c : Fin 32, pairOf c ≠ k → p.channel c = s.part.channel c) ∧
      p.output.pairs = s.part.output.pairs ∧
      (∀ (side : Side) (d : Fin 8) (entry : Option Nat) (w : Waiting),
        (s.part.channel (channelOf k side)).waiting = some w → w.kind = .domainSafe d entry →
        (p.channel (channelOf k side)).waiting = none →
        (∀ x ∈ (p.domain d).progress, x.channel = channelOf k side → x.entry = entry → x.state = .done) ∧
        ((s.part.domain d).state = .tripping → (∀ x ∈ (p.domain d).progress, x.state = .done) →
          (p.domain d).state = .tripped)) ∧
      p.timelines = s.part.timelines ∧ p.table = s.part.table ∧ p.clock = s.part.clock ∧
      p.inputs = s.part.inputs ∧ p.command = s.part.command

/-- R44, R45: CONFIGURE CHANNEL. The refusal table; and, accepted, the safe level set and the idle level applied at once, or
kept as the channel's waiting request, with the completion's value the present time or the pair's dead-time end. -/
def Obligations.ConfigureChannelSetsTheLevels : Prop :=
  ∀ (h : Header) (b : ChannelBody) (s : State) (q : Fin 8), s.part.ready q = true →
    (s.part.queue q).authority.getLsbD 0 = true →
    let T := s.part.taken q
    let c := Fin.ofNat 32 b.channel.toNat
    let pair := T.pair (pairOf c)
    let table := T.channelTable q b
    (∀ row, table.find? (fun row => row.1) = some row →
      takes (.configureChannel h b) s (T.complete q h row.2.1 row.2.2)) ∧
    (table.find? (fun row => row.1) = none →
      (b.idleLevel = 4 → ∀ safe : Level, Level.ofCode b.safeLevel.toNat = some safe →
        takes (.configureChannel h b) s
          ((T.modChannel c fun ch => { ch with safe := safe }).completeWith q h 0 T.clock.time)) ∧
      ∀ safe idle : Level, Level.ofCode b.safeLevel.toNat = some safe → Level.ofCode b.idleLevel.toNat = some idle →
        let waits : Prop := pair.enabled = true ∧ idle = pair.polarity.activeLevel ∧
          (T.channel c).level ≠ idle ∧ T.clock.time < pair.deadTimeEnd
        leads (.configureChannel h b) s fun p =>
          (waits → p.channel c = { T.channel c with safe := safe, waiting := some { level := idle, kind := .idle } } ∧
            p.posting.writeList.getLast? = some (.completion (T.queue q).cq
              { queue := q, id := h.id, status := .ok, aux := 0, drops := 0, value := pair.deadTimeEnd })) ∧
          (¬waits → p.channel c = { T.channel c with safe := safe, level := idle, waiting := none } ∧
            p.posting.writeList.getLast? = some (.completion (T.queue q).cq
              { queue := q, id := h.id, status := .ok, aux := 0, drops := 0, value := T.clock.time })) ∧
          (∀ c' : Fin 32, c' ≠ c → c' ≠ partnerOf c → p.channel c' = T.channel c') ∧
          p.timelines = T.timelines ∧ p.table = T.table ∧ p.clock = T.clock ∧ p.inputs = T.inputs ∧
          p.command = T.command ∧ p.engine = T.engine)

/-- R46, R47: CONFIGURE PAIR. The refusal table; and, accepted, the pair record set, with the dead-time end at the present time
plus the new dead time when a channel leaves the active level by it, and no level changed. That this sum is held at 2^64-1
is the model's (log 16). -/
def Obligations.ConfigurePairSetsTheRecord : Prop :=
  ∀ (h : Header) (b : PairBody) (s : State) (q : Fin 8), s.part.ready q = true →
    (s.part.queue q).authority.getLsbD 0 = true →
    let T := s.part.taken q
    let k := Fin.ofNat 16 b.pair.toNat
    let lo := channelOf k .lower
    let up := channelOf k .upper
    let enable := b.enable.getLsbD 0
    let polarity : Polarity := if b.polarity = 1 then .activeHigh else .activeLow
    let active := polarity.activeLevel
    let leaves (c : Fin 32) : Bool :=
      (T.pair k).enabled && (T.channel c).level == (T.pair k).polarity.activeLevel &&
        !(enable && (T.channel c).level == active)
    let deadTimeEnd := if leaves lo || leaves up then min (T.clock.time + b.deadTime.toNat) maxTime else T.clock.time
    takes (.configurePair h b) s
      (T.answered q h
        [ (decide (16 ≤ b.pair.toNat), .badField, 1),
          (decide ((b.polarity ≠ 1 ∧ b.polarity ≠ 2) ∨ 1023 < b.deadTime.toNat), .badField, 2),
          (!(T.queue q).mask.getLsbD lo.val, .noAuthority, lo.val),
          (!(T.queue q).mask.getLsbD up.val, .noAuthority, up.val),
          (decide (T.timeline lo ≠ [] ∨ T.timeline up ≠ []), .wrongState, 1),
          ((T.channel lo).force.isSome || (T.channel up).force.isSome, .wrongState, 2),
          ((T.channel lo).waiting.isSome || (T.channel up).waiting.isSome, .wrongState, 3),
          (enable && (T.channel lo).level == active && (T.channel up).level == active, .wrongState, 4),
          (enable && (T.channel lo).safe == active && (T.channel up).safe == active, .badField, 3),
          (enable && decide (T.domainOf lo ≠ T.domainOf up), .badField, 4) ]
        ((T.modPair k fun _ =>
          { enabled := enable, polarity := polarity, deadTime := b.deadTime.toNat,
            deadTimeEnd := deadTimeEnd }).completeWith q h 0 deadTimeEnd))

/-- R48, R123, section 12.4: QUERY CHANNEL and READ TIME change no state of the spec's. QUERY CHANNEL reports the channel's record
and context; the force reason's bit is 1 for ENGINE and 0 for DOMAIN, and for a SCHEDULED channel it is meaningless, and
any bit (log 6). READ TIME is never refused and reports the timebase value and, packed, the source, the primary present
indication, the supervisor's state, the bad counter and the last verdict. -/
def Obligations.QueriesReport : Prop :=
  (∀ (h : Header) (channel : BitVec 8) (s : State) (q : Fin 8), s.part.ready q = true →
     let T := s.part.taken q
     let c := Fin.ofNat 32 channel.toNat
     let ch := T.channel c
     let pair := T.pair (pairOf c)
     let bits (b : Bool) (n : Nat) : Nat := if b then 2 ^ n else 0
     ∃ reason : Bool, (∀ r, ch.force = some r → (reason = true ↔ r = .engine)) ∧
       takes (.queryChannel h channel) s
         (T.answered q h
           [ (decide (32 ≤ channel.toNat), .badField, 1),
             (!(T.queue q).mask.getLsbD channel.toNat, .noAuthority, channel.toNat) ]
           (({ T with freeIndex := T.freeIndex + 1 } : Part).completeWith q h
             (ch.level.code + 4 * ch.safe.code + bits ch.force.isSome 4 + bits reason 5 + bits ch.waiting.isSome 6 +
               bits pair.enabled 7 + bits (pair.polarity == .activeLow) 8 + 1024 * (T.timeline c).length)
             (match T.timeline c with
               | [] => 2 ^ 64 - 1
               | x :: _ => x.effective)))) ∧
  ∀ (h : Header) (s : State) (q : Fin 8), s.part.ready q = true →
    let T := s.part.taken q
    let sup := T.clock.supervisor
    takes (.readTime h) s
      (T.completeWith q h
        ((if T.clock.source = .backup then 1 else 0) + (if T.clock.primaryPresent then 2 else 0) +
          4 * sup.state.code + 16 * sup.bad +
          256 * (match sup.verdict with
            | none => 0
            | some .inRange => 1
            | some .high => 2
            | some .low => 3
            | some .noReference => 4
            | some .primaryStopped => 5))
        T.clock.time)

/-! ## The Domain Unit -/

/-- R86, R87: CONFIGURE DOMAIN and LOAD SAFE SEQUENCE. The refusal tables, in which each check of a sequence names the first entry
that fails it. Accepted, the one replaces the member set, the source set and the disposition and empties the sequence and
the causes, and the other replaces the sequence. -/
def Obligations.DomainConfiguration : Prop :=
  (∀ (h : Header) (b : DomainBody) (s : State) (q : Fin 8), s.part.ready q = true →
     (s.part.queue q).authority.getLsbD 1 = true →
     let T := s.part.taken q
     let d := Fin.ofNat 8 b.domain.toNat
     let outside (c : Fin 32) : Bool := b.members.getLsbD c.val && !(T.queue q).mask.getLsbD c.val
     takes (.configureDomain h b) s
       (T.answered q h
         [ (decide (8 ≤ b.domain.toNat), .badField, 1),
           (decide ((b.disposition ≠ 1 ∧ b.disposition ≠ 2) ∨ 2 ^ 18 ≤ b.sources.toNat), .badField, 2),
           (decide ((T.domain d).state ≠ .disarmed), .wrongState, 0),
           ((List.finRange 32).any outside, .noAuthority, (List.finRange 32).findIdx outside),
           ((List.finRange 8).any fun e => decide (e ≠ d) && (List.finRange 32).any fun c =>
             b.members.getLsbD c.val && (T.domain e).members.getLsbD c.val, .badField, 3),
           ((List.finRange 16).any fun k => (T.pair k).enabled &&
             b.members.getLsbD (2 * k.val) != b.members.getLsbD (2 * k.val + 1), .badField, 4) ]
         ((T.modDomain d fun x =>
           { x with members := b.members, sources := b.sources.setWidth 18,
                    disposition := if b.disposition = 1 then .discard else .hold, sequence := [], causes := 0,
                    progress := [] }).complete q h .ok 0))) ∧
  ∀ (h : Header) (b : SequenceBody) (s : State) (q : Fin 8), s.part.ready q = true → b.wellFormed = true →
    (s.part.queue q).authority.getLsbD 1 = true →
    let T := s.part.taken q
    let d := Fin.ofNat 8 b.domain.toNat
    let channel (n : Nat) : Nat := (b.entries[n]?.map fun e => e.channel.toNat).getD 0
    let offset (n : Nat) : Nat := (b.entries[n]?.map fun e => e.offset.toNat).getD 0
    let check (fails : Nat → Bool) : Bool × Status × Nat :=
      ((List.range b.entryCount.toNat).any fails, .badField, (List.range b.entryCount.toNat).findIdx fails + 1)
    takes (.loadSafeSequence h b) s
      (T.answered q h
        [ (decide (8 ≤ b.domain.toNat), .badField, 1),
          (decide ((T.domain d).state ≠ .disarmed), .wrongState, 0),
          (decide (8 < b.entryCount.toNat), .badField, 0),
          check fun n => decide (32 ≤ channel n) || !(T.domain d).members.getLsbD (channel n),
          check fun n => decide (1048575 < offset n),
          check fun n => (List.range n).any fun m => channel m == channel n,
          check fun n => decide (0 < n ∧ offset n < offset (n - 1)) ]
        ((T.modDomain d fun x =>
          { x with sequence := (List.range b.entryCount.toNat).map fun n =>
                     { channel := Fin.ofNat 32 (channel n), offset := offset n } }).complete q h .ok 0))

/-- R88, R89: ARM DOMAIN and DISARM DOMAIN. The refusal tables; accepted, only the domain's state and, at an arm, its latched
causes change. A DISARM also drops the model's mark of a CONTENTION pulse on its way (log 21). -/
def Obligations.ArmAndDisarm : Prop :=
  ∀ (h : Header) (domain : BitVec 8) (s : State) (q : Fin 8), s.part.ready q = true →
    (s.part.queue q).authority.getLsbD 1 = true →
    let T := s.part.taken q
    let d := Fin.ofNat 8 domain.toNat
    takes (.armDomain h domain) s
      (T.answered q h
        [ (decide (8 ≤ domain.toNat), .badField, 1),
          (decide ((T.domain d).state ≠ .disarmed), .wrongState, 0),
          (decide ((T.domain d).members = 0), .badField, 2),
          ((List.finRange 17).any (T.sourceActive (T.domain d)), .sourceActive,
            (List.finRange 17).findIdx (T.sourceActive (T.domain d))) ]
        ((T.modDomain d fun x => { x with state := .armed, causes := 0 }).complete q h .ok 0)) ∧
    takes (.disarmDomain h domain) s
      (T.answered q h
        [ (decide (8 ≤ domain.toNat), .badField, 1),
          (decide ((T.domain d).state = .tripping ∨ (T.domain d).state = .tripped), .wrongState, 0) ]
        (if (T.domain d).state = .disarmed then T.complete q h .ok 0
         else (T.modDomain d fun x => { x with state := .disarmed, contentionWaits := false }).complete q h .ok 0))

/-- R90, R78: TRIP DOMAIN. The refusal table; accepted, SOFTWARE is offered to the domain and the command completes after what
the offer hands over, with aux 1 if it tripped an ARMED domain and the domain's trip time as value. A CONTENTION pulse that
waited for the trip (log 21) is a cause added to it. -/
def Obligations.TripDomainOffersSoftware : Prop :=
  ∀ (h : Header) (domain : BitVec 8) (s : State) (q : Fin 8), s.part.ready q = true →
    let T := s.part.taken q
    let d := Fin.ofNat 8 domain.toNat
    let offered := T.offer .software d
    takes (.tripDomain h domain) s
      (T.answered q h
        [ (decide (8 ≤ domain.toNat), .badField, 1),
          ((List.finRange 32).all fun c => !((T.domain d).members.getLsbD c.val && (T.queue q).mask.getLsbD c.val),
            .noAuthority, 0),
          (decide ((T.domain d).state = .disarmed), .wrongState, 0) ]
        (offered.completeWith q h (if (T.domain d).state = .armed then 1 else 0) (offered.domain d).tripTime)) ∧
    ((T.domain d).state = .armed → (offered.domain d).tripTime = s.part.clock.time ∧
      ((offered.domain d).state = .tripping ∨ (offered.domain d).state = .tripped) ∧
        (offered.domain d).causes = 1#21 <<< 18 |||
          (if (T.domain d).contentionWaits = true ∧ (T.domain d).sources.getLsbD 17 = true then 1#21 <<< 17 else 0)) ∧
    ((T.domain d).state = .tripping ∨ (T.domain d).state = .tripped →
      offered.domain d = { T.domain d with causes := (T.domain d).causes ||| 1#21 <<< 18 } ∧
        offered.output = T.output ∧ offered.timelines = T.timelines)

/-- R71 to R76: a trip. The domain takes the trip time and the one cause; every member is FORCED(DOMAIN) with any earlier waiting
request gone; under DISCARD the members' timelines are empty and under HOLD no step is touched; each immediate member is
at its safe level or waits for it; and the domain is TRIPPED exactly if no part is left to do. No CONTENTION pulse waits for the
trip any longer (log 21). -/
def Obligations.TripForcesAndDrives : Prop :=
  ∀ (p : Part) (d : Fin 8) (cause : Cause),
    let before := p.domain d
    let p' := p.trip d cause
    let after := p'.domain d
    (after.tripTime = p.clock.time ∧ after.causes = 1#21 <<< cause.number.val ∧ after.members = before.members ∧
      after.sources = before.sources ∧ after.disposition = before.disposition ∧ after.sequence = before.sequence ∧
      after.contentionWaits = false) ∧
    (after.state = if ∀ x ∈ after.progress, x.state = .done then .tripped else .tripping) ∧
    (∀ c : Fin 32, before.members.getLsbD c.val = true →
      (p'.channel c).force = some .domain ∧
        ∀ w, (p'.channel c).waiting = some w → ∃ entry, w.kind = .domainSafe d entry ∧ w.level = (p.channel c).safe) ∧
    (∀ c : Fin 32, before.members.getLsbD c.val = false → (p'.channel c).force = (p.channel c).force) ∧
    (∀ c : Fin 32, (p'.channel c).safe = (p.channel c).safe) ∧
    (before.disposition = .discard → ∀ c : Fin 32,
      p'.timeline c = if before.members.getLsbD c.val then [] else p.timeline c) ∧
    (before.disposition = .hold → p'.timelines = p.timelines ∧ p'.table = p.table) ∧
    (∀ c : Fin 32, before.members.getLsbD c.val = true → (∀ e ∈ before.sequence, e.channel ≠ c) →
      (p'.channel c).level = (p.channel c).safe ∨
        (p'.channel c).waiting = some { level := (p.channel c).safe, kind := .domainSafe d none }) ∧
    p'.clock = p.clock ∧ p'.inputs = p.inputs ∧ p'.command = p.command ∧ p'.engine = p.engine

/-- R80, R81: RELEASE DOMAIN. The refusal table; and, accepted, the domain ARMED without causes and progress, its members
SCHEDULED at the levels they have, the held steps kept, carried forward or dropped, and the completion handed over last
with the number dropped EXPIRED and the release time. -/
def Obligations.ReleaseReturnsTheMembers : Prop :=
  ∀ (h : Header) (domain : BitVec 8) (s : State) (q : Fin 8), s.part.ready q = true →
    (s.part.queue q).authority.getLsbD 1 = true →
    let T := s.part.taken q
    let d := Fin.ofNat 8 domain.toNat
    let before := T.domain d
    let table := T.releaseTable domain
    (∀ row, table.find? (fun row => row.1) = some row →
      takes (.releaseDomain h domain) s (T.complete q h row.2.1 row.2.2)) ∧
    (table.find? (fun row => row.1) = none →
      leads (.releaseDomain h domain) s fun p =>
        p.domain d = { before with state := .armed, causes := 0, progress := [] } ∧
        (∀ c : Fin 32, p.channel c =
          if before.members.getLsbD c.val = true ∧ (T.channel c).force = some .domain
          then { T.channel c with force := none } else T.channel c) ∧
        (∀ c : Fin 32, p.timeline c =
          if before.members.getLsbD c.val = true ∧ before.disposition = .hold
          then releaseTimeline T.clock.time (T.timeline c) else T.timeline c) ∧
        p.posting.writeList.getLast? = some (.completion (T.queue q).cq
          { queue := q, id := h.id, status := .ok, drops := 0, value := T.clock.time,
            aux := if before.disposition = .hold
              then ((List.finRange 32).map fun c =>
                if before.members.getLsbD c.val then (expiredAt T.clock.time (T.timeline c)).length else 0).sum
              else 0 }) ∧
        (∀ e : Fin 8, e ≠ d → p.domain e = T.domain e) ∧ p.output.pairs = T.output.pairs ∧
        p.clock = T.clock ∧ p.inputs = T.inputs ∧ p.command = T.command ∧ p.engine = T.engine)

/-- R82, R83: what a release at r does with one held step. At or after r it is kept. Before r a single step is dropped; a
repeating one has transitions counted off until it is at or after r, or is dropped when its cycles run out. -/
def Obligations.HeldStepAtARelease : Prop :=
  ∀ (r : Nat) (x : Sys2Proof.Machine.Step),
    (r ≤ x.effective → x.releaseFate r = .kept) ∧
    (x.effective < r →
      (∀ action, x.body = .single action → x.releaseFate r = .expired) ∧
      ∀ rep : Repeat, x.body = .repeating rep → 1 ≤ rep.cycles →
        let count (y : Option (Repeat × Nat)) : Option (Repeat × Nat) :=
          match y with
          | none => none
          | some (rep, t) =>
            match rep.next with
            | .a => some ({ rep with next := .b }, min (t + rep.afterA) maxTime)
            | .b => if rep.cycles ≤ 1 then none
                    else some ({ rep with next := .a, cycles := rep.cycles - 1 }, min (t + rep.afterB) maxTime)
        let counted (n : Nat) : Option (Repeat × Nat) := (List.replicate n ()).foldl (fun y _ => count y)
          (some (rep, x.effective))
        (x.releaseFate r = .expired ∧ ∃ n, counted n = none ∧ ∀ m < n, ∃ y, counted m = some y ∧ y.2 < r) ∨
          ∃ n rep' t', counted n = some (rep', t') ∧ r ≤ t' ∧
            (∀ m < n, ∃ y, counted m = some y ∧ y.2 < r) ∧
            x.releaseFate r = .carried { x with body := .repeating rep', effective := t' })

/-- R91: QUERY DOMAIN is accepted in every state of the domain, changes no state, and reports the trip time and, packed as
section 12.4 gives it, the causes, the state, the disposition and the parts not DONE. -/
def Obligations.QueryDomainReports : Prop :=
  ∀ (h : Header) (domain : BitVec 8) (s : State) (q : Fin 8), s.part.ready q = true →
    let T := s.part.taken q
    let x := T.domain (Fin.ofNat 8 domain.toNat)
    takes (.queryDomain h domain) s
      (T.answered q h [(decide (8 ≤ domain.toNat), .badField, 1)]
        (T.completeWith q h
          (x.causes.toNat +
            2 ^ 21 * (match x.state with
              | .disarmed => 0
              | .armed => 1
              | .tripping => 2
              | .tripped => 3) +
            (if x.disposition = .hold then 2 ^ 23 else 0) +
            2 ^ 24 * (if x.state = .tripping then (x.progress.filter fun y => y.state != .done).length else 0))
          x.tripTime))

/-- R75, R76: a safe-sequence entry that falls due. Its channel is at its safe level or waits for it, the entry is no longer
PENDING, and the domain enters TRIPPED exactly if no part is left to do. -/
def Obligations.SafeSequenceEntryIsMade : Prop :=
  ∀ (s : State) (d : Fin 8) (n : Nat) (e : SequenceEntry), s.part.awake = true →
    let before := s.part.domain d
    before.state = .tripping → before.sequence[n]? = some e → min (before.tripTime + e.offset) maxTime ≤ s.part.clock.time →
    (before.progress.find? fun x => x.entry = some (n + 1)).map ProgressPart.state = some .pending →
    (∀ m ≤ n, (before.progress.find? fun x => x.entry = some m).map ProgressPart.state ≠ some .pending) →
    leads (.safeSequenceEntryDue d (n + 1)) s fun p =>
      ((p.channel e.channel).level = (s.part.channel e.channel).safe ∨
        (p.channel e.channel).waiting =
          some { level := (s.part.channel e.channel).safe, kind := .domainSafe d (some (n + 1)) }) ∧
      (∀ x ∈ (p.domain d).progress, x.channel = e.channel → x.entry = some (n + 1) → x.state ≠ .pending) ∧
      ((p.domain d).state = if ∀ x ∈ (p.domain d).progress, x.state = .done then .tripped else .tripping) ∧
      (p.domain d).causes = before.causes ∧ (p.domain d).tripTime = before.tripTime ∧
      (∀ c : Fin 32, pairOf c ≠ pairOf e.channel → p.channel c = s.part.channel c) ∧
      p.timelines = s.part.timelines ∧ p.table = s.part.table ∧ p.clock = s.part.clock ∧
      p.inputs = s.part.inputs ∧ p.command = s.part.command

/-! ## The Fault Input Block -/

/-- R99, R100, R102: CONFIGURE FAULT INPUT and CLEAR FAULT LATCH. The refusal tables; accepted, the one restarts the input with
the command's values and reports the filtered level and the latch it had, the other clears the latch and reports it. -/
def Obligations.FaultInputCommands : Prop :=
  ∀ (h : Header) (s : State) (q : Fin 8), s.part.ready q = true → (s.part.queue q).authority.getLsbD 2 = true →
    let T := s.part.taken q
    let serving (n : Nat) (d : Fin 8) : Bool := (T.domain d).sources.getLsbD n && (T.domain d).state != .disarmed
    (∀ b : InputBody,
      let n := Fin.ofNat 16 b.input.toNat
      takes (.configureFaultInput h b) s
        (T.answered q h
          [ (decide (16 ≤ b.input.toNat), .badField, 1),
            (decide ((b.polarity ≠ 1 ∧ b.polarity ≠ 2) ∨ (b.mode ≠ 1 ∧ b.mode ≠ 2) ∨
              (b.sampleInterval ≠ 1 ∧ b.sampleInterval ≠ 8 ∧ b.sampleInterval ≠ 64 ∧ b.sampleInterval ≠ 512) ∨
              b.filterCount = 0 ∨ 15 < b.filterCount.toNat), .badField, 2),
            ((List.finRange 8).any (serving n.val), .wrongState, (List.finRange 8).findIdx (serving n.val)) ]
          ((T.modInput n fun _ =>
            { enabled := b.flags.getLsbD 0, polarity := if b.polarity = 1 then .activeHigh else .activeLow,
              mode := if b.mode = 1 then .level else .latched, interval := b.sampleInterval.toNat,
              filterCount := b.filterCount.toNat, report := b.flags.getLsbD 1, filtered := false, run := 0,
              latch := false, spacing := 0 }).complete q h .ok
            ((if (T.input n).filtered then 1 else 0) + if (T.input n).latch then 2 else 0)))) ∧
    ∀ input : BitVec 8,
      let n := Fin.ofNat 16 input.toNat
      takes (.clearFaultLatch h input) s
        (T.answered q h
          [ (decide (16 ≤ input.toNat), .badField, 1),
            (decide ((T.input n).mode ≠ .latched), .wrongState, 0),
            ((T.input n).filtered, .sourceActive, input.toNat) ]
          ((T.modInput n fun x => { x with latch := false }).complete q h .ok (if (T.input n).latch then 1 else 0)))

/-- R93, R94, R95, R96: a sample equal to the filtered level clears the run count; a different one raises it, and as the
filter-count-th in a row changes the level, which in LATCHED mode sets the latch when it becomes active. R97, R69, R70: a
sample that begins the active condition is offered to every domain that selects the input; any other changes nothing else. -/
def Obligations.FaultInputSamples : Prop :=
  (∀ (s : State) (n : Fin 16) (pinHigh : Bool), s.part.resetAsserted = false → s.part.settled = true →
     let i := s.part.input n
     i.enabled = true → i.interval ≤ i.spacing →
     let sample : Bool := if i.polarity = .activeHigh then pinHigh else !pinHigh
     let changes : Prop := sample ≠ i.filtered ∧ i.run + 1 = i.filterCount
     let i' : FaultInput := { i with
       spacing := 0
       run := if sample = i.filtered ∨ changes then 0 else i.run + 1
       filtered := if changes then sample else i.filtered
       latch := i.latch || (decide changes && sample && i.mode == .latched) }
     ¬(i.active = false ∧ i'.active = true) →
       takes (.sampleEvent n pinHigh) s { s.part with inputs := updateAt s.part.inputs n fun _ => i' }) ∧
  ∀ (s : State) (n : Fin 16) (pinHigh : Bool), s.part.awake = true →
    let i := s.part.input n
    let sample : Bool := if i.polarity = .activeHigh then pinHigh else !pinHigh
    i.enabled = true → i.interval ≤ i.spacing → i.active = false → sample = true → i.filtered = false →
    i.run + 1 = i.filterCount →
    leads (.sampleEvent n pinHigh) s fun p =>
      p.input n = { i with filtered := true, run := 0, spacing := 0, latch := i.latch || i.mode == .latched } ∧
      (p.input n).active = true ∧ s.part.offered (.input n) p ∧
      (∀ m : Fin 16, m ≠ n → p.input m = s.part.input m) ∧ p.clock = s.part.clock ∧ p.command = s.part.command

/-! ## The timebase and the clock supervisor -/

/-- R105, R106: a tick raises the timebase by one, up to 2^64-1, and counts in every interval that counts ticks: the window, the
reference timer, the sample spacings of enabled inputs, the holdoff timers, the access timers. The rest is the model's choice
or reading, not the rules'. A timer at its limit stays there until its event is taken (DESIGN CHOICE, log 14). With BACKUP
active the tick is a period of the backup oscillator, which the detector of R108 counts, up to 32 (DEDUCED, log 11). With
PRIMARY active the tick leaves the detector alone (DESIGN CHOICE, unsafe, log 11). Nothing else changes. Before the tick, a
CONTENTION pulse still waiting for a trip reaches its domain, which it trips if the domain is ARMED and selects CONTENTION (R41
and R69, at a moment that the model chooses: DESIGN CHOICE, log 21). -/
def Obligations.TickCountsEveryInterval : Prop :=
  let counted (a : Access) : Access := { a with timer := if a.timer < a.limit then a.timer + 1 else a.timer }
  (∀ s : State, s.part.resetAsserted = false → s.part.settled = true →
     (∀ d : Fin 8, (s.part.domain d).contentionWaits = false) →
     leads .timebaseTick s fun p =>
       p.clock = { s.part.clock with
         time := min (s.part.clock.time + 1) (max s.part.clock.time (2 ^ 64 - 1))
         detectorCount :=
           if s.part.clock.source = .backup ∧ s.part.clock.detectorCount < 32 then s.part.clock.detectorCount + 1
           else s.part.clock.detectorCount
         supervisor := { s.part.clock.supervisor with window := s.part.clock.supervisor.window.map fun w => { w with
           ticks := if w.isOpen = true ∧ w.ticks < 2 ^ 32 - 1 then w.ticks + 1 else w.ticks
           refTimer := if w.refTimer < s.part.clock.supervisor.referenceTimeout then w.refTimer + 1 else w.refTimer } } } ∧
       (∀ n : Fin 16, p.input n = { s.part.input n with
         spacing := if (s.part.input n).enabled = true ∧ (s.part.input n).spacing < (s.part.input n).interval
                    then (s.part.input n).spacing + 1 else (s.part.input n).spacing }) ∧
       (∀ n : Fin 4, p.cq n = { s.part.cq n with timer := (s.part.cq n).timer.map fun t => t - 1 }) ∧
       p.monitor = { s.part.monitor with
         command := s.part.monitor.command.map counted, posting := s.part.monitor.posting.map counted,
         block := s.part.monitor.block.map counted } ∧
       p = { s.part with clock := p.clock, inputs := p.inputs, posting := { s.part.posting with cqs := p.posting.cqs },
                         monitor := p.monitor }) ∧
  ∀ (s : State) (d : Fin 8), s.part.awake = true → s.part.clock.time < 2 ^ 64 - 1 →
    (s.part.domain d).contentionWaits = true → (s.part.domain d).state = .armed →
    leads .timebaseTick s fun p =>
      (p.domain d).contentionWaits = false ∧
      ((s.part.domain d).sources.getLsbD 17 = false →
        (p.domain d).state = .armed ∧ (p.domain d).causes = (s.part.domain d).causes ∧
          (p.domain d).tripTime = (s.part.domain d).tripTime) ∧
      ((s.part.domain d).sources.getLsbD 17 = true →
        ((p.domain d).state = .tripping ∨ (p.domain d).state = .tripped) ∧
          (p.domain d).causes = 1#21 <<< 17 ∧ (p.domain d).tripTime = s.part.clock.time) ∧
      p.clock.time = s.part.clock.time + 1

/-- R105: the timebase never decreases, except at a hard reset, and of all commands only a tick changes it. -/
def Obligations.TimeNeverDecreases : Prop :=
  ∀ (c : Instr) (s s' : State), c ≠ .hardReset → exec c s = .next s' →
    s.part.clock.time ≤ s'.part.clock.time ∧ (c ≠ .timebaseTick → s'.part.clock.time = s.part.clock.time)

/-- R108, R109: a TCLK edge makes the primary present indication present and its count 0; with the count at 32 while BACKUP is
active it becomes absent, and nothing else changes; below 32 there is no such event, and nothing changes (log 2). R113: a REF
edge opens a window that waits for it, starting the tick count and the reference timer from 0, and is counted by an open
window whose closing edge it is not, restarting the reference timer. -/
def Obligations.ClockPinEdges : Prop :=
  (∀ s : State, s.part.resetAsserted = false → s.part.settled = true →
     takes .tclkEdge s { s.part with clock := { s.part.clock with primaryPresent := true, detectorCount := 0 } } ∧
     (s.part.clock.source = .backup → 32 ≤ s.part.clock.detectorCount →
       takes .primaryIndicationAbsent s
         { s.part with clock := { s.part.clock with primaryPresent := false, detectorCount := 32 } }) ∧
     (s.part.clock.detectorCount < 32 → takes .primaryIndicationAbsent s s.part)) ∧
  ∀ (s : State) (w : SupervisorWindow), s.part.resetAsserted = false → s.part.settled = true →
    let sup := s.part.clock.supervisor
    (sup.state = .settling ∨ sup.state = .measuring) → sup.window = some w →
    let withWindow (w : SupervisorWindow) : Part :=
      { s.part with clock := { s.part.clock with supervisor := { sup with window := some w } } }
    (w.isOpen = false → takes .refEdge s (withWindow { isOpen := true, edges := 0, ticks := 0, refTimer := 0 })) ∧
    (w.isOpen = true → w.edges + 1 < sup.windowLength →
      takes .refEdge s (withWindow { w with edges := w.edges + 1, refTimer := 0 }))

/-- R107, R109, R110, R112: with the count at 32 periods and PRIMARY active, the primary-stop event switches to BACKUP with the
timebase kept. Below 32, or with BACKUP active, there is no such event, and nothing changes (log 2). A supervisor that was
measuring is FAILED with verdict PRIMARY STOPPED and the count of the abandoned window, its bad counter kept, and CLOCK is
offered to the domains; one that was DISABLED or FAILED is as it was, and no domain is reached. -/
def Obligations.PrimaryStopSwitchesToBackup : Prop :=
  (∀ s : State, s.part.clock.detectorCount < 32 ∨ s.part.clock.source = .backup → takes .primaryStop s s.part) ∧
  ∀ s : State, s.part.awake = true → s.part.clock.source = .primary → 32 ≤ s.part.clock.detectorCount →
    let sup := s.part.clock.supervisor
    leads .primaryStop s fun p =>
      p.clock.time = s.part.clock.time ∧ p.clock.source = .backup ∧ p.clock.primaryPresent = false ∧
      p.clock.detectorCount = 32 ∧
      (sup.state = .disabled ∨ sup.state = .failed → p.clock.supervisor = sup ∧ p.domains = s.part.domains) ∧
      (sup.state = .settling ∨ sup.state = .measuring →
        p.clock.supervisor = { sup with
          state := .failed, verdict := some .primaryStopped, window := none
          lastCount := match sup.window with
            | some w => if w.isOpen then w.ticks else 0
            | none => 0 } ∧
        s.part.offered .clock p) ∧
      p.inputs = s.part.inputs ∧ p.command = s.part.command

/-- R113 to R116: the end of a window, by its W-th REF edge or by the reference timer. In SETTLING the verdict is discarded and
the supervisor is MEASURING. In MEASURING the verdict and the count are taken, IN RANGE clears the bad counter, and any other
raises it; at the fail count the supervisor is FAILED, the source is switched if the fail action says so and PRIMARY is
active, and CLOCK is offered to the domains. That the W-th edge ends the window whether it is presented as REF EDGE or as
WINDOW END is the model's reading (log 17). The primary present indication and the detector's count stay, whichever source is
active (R108). -/
def Obligations.WindowEndGivesItsVerdict : Prop :=
  ∀ (s : State) (w : SupervisorWindow) (i : Instr) (verdict : Verdict) (count : Nat) (next : SupervisorWindow),
    s.part.awake = true →
    let sup := s.part.clock.supervisor
    sup.window = some w →
    ((i = .windowEnd ∨ i = .refEdge) ∧ w.isOpen = true ∧ sup.windowLength ≤ w.edges + 1 ∧ count = w.ticks ∧
      next = { isOpen := true, edges := 0, ticks := 0, refTimer := 0 } ∧
      verdict = (if sup.upperLimit < count then .high else if count < sup.lowerLimit then .low else .inRange)) ∨
    (i = .referenceTimeout ∧ sup.referenceTimeout ≤ w.refTimer ∧ verdict = .noReference ∧
      count = (if w.isOpen then w.ticks else 0) ∧
      next = { isOpen := false, edges := 0, ticks := 0, refTimer := 0 }) →
    let bad := if verdict = .inRange then 0 else sup.bad + 1
    let fails : Prop := verdict ≠ .inRange ∧ bad = sup.failCount
    (sup.state = .settling →
      leads i s fun p =>
        p.clock = { s.part.clock with supervisor := { sup with state := .measuring, window := some next } } ∧
        p.domains = s.part.domains ∧ p.output = s.part.output ∧ p.inputs = s.part.inputs) ∧
    (sup.state = .measuring →
      leads i s fun p =>
        p.clock.supervisor = { sup with
          verdict := some verdict, lastCount := count, bad := bad, state := if fails then .failed else .measuring,
          window := if fails then none else some next } ∧
        p.clock.source = (if fails ∧ sup.failAction = some .switchToBackup then .backup else s.part.clock.source) ∧
        p.clock.time = s.part.clock.time ∧ p.clock.primaryPresent = s.part.clock.primaryPresent ∧
        p.clock.detectorCount = s.part.clock.detectorCount ∧
        (fails → s.part.offered .clock p) ∧ (¬fails → p.domains = s.part.domains) ∧ p.inputs = s.part.inputs)

/-- R119, R120, R121: CONFIGURE SUPERVISOR and RESTORE PRIMARY CLOCK. The refusal tables; accepted, both report the state and the
source before the command. The one replaces the record, SETTLING and waiting for an opening edge or DISABLED, with the
source kept. After the other a source that was BACKUP is PRIMARY with its notice, and a supervisor that is not DISABLED is
SETTLING with the bad counter at 0, its last verdict and count kept. -/
def Obligations.ClockCommands : Prop :=
  (∀ (h : Header) (b : SupervisorBody) (s : State) (q : Fin 8), s.part.ready q = true →
     (s.part.queue q).authority.getLsbD 3 = true →
     let T := s.part.taken q
     let serving (d : Fin 8) : Bool := (T.domain d).sources.getLsbD 16 && (T.domain d).state != .disarmed
     let limitPasses (l : BitVec 32) : Prop := 1 ≤ l.toNat ∧ l.toNat < 2 ^ 24
     let enable := b.enable.getLsbD 0
     takes (.configureSupervisor h b) s
       (T.answered q h
         [ (decide (b.windowLength = 0 ∨ 4096 < b.windowLength.toNat), .badField, 1),
           (decide (¬(limitPasses b.lowerLimit ∧ limitPasses b.upperLimit ∧ b.lowerLimit ≤ b.upperLimit)), .badField, 2),
           (decide (b.failCount = 0 ∨ 15 < b.failCount.toNat), .badField, 3),
           (decide (b.referenceTimeout = 0 ∨ 2 ^ 24 < b.referenceTimeout.toNat), .badField, 4),
           (decide (b.failAction ≠ 1 ∧ b.failAction ≠ 2), .badField, 5),
           ((List.finRange 8).any serving, .wrongState, (List.finRange 8).findIdx serving) ]
         ((T.modSupervisor fun _ =>
           { state := if enable then .settling else .disabled, windowLength := b.windowLength.toNat,
             lowerLimit := b.lowerLimit.toNat, upperLimit := b.upperLimit.toNat, failCount := b.failCount.toNat,
             referenceTimeout := b.referenceTimeout.toNat,
             failAction := some (if b.failAction = 1 then .flagOnly else .switchToBackup), bad := 0, verdict := none,
             lastCount := 0,
             window := if enable then some { isOpen := false, edges := 0, ticks := 0, refTimer := 0 } else none }).complete
           q h .ok (T.clock.supervisor.state.code + 4 * T.clock.source.code)))) ∧
  ∀ (h : Header) (s : State) (q : Fin 8), s.part.ready q = true → (s.part.queue q).authority.getLsbD 3 = true →
    let T := s.part.taken q
    let sup := T.clock.supervisor
    let settled : Supervisor :=
      if sup.state = .disabled then sup
      else { sup with state := .settling, bad := 0,
                      window := some { isOpen := false, edges := 0, ticks := 0, refTimer := 0 } }
    let switched : Part :=
      if T.clock.source = .backup then
        (T.modClock fun c => { c with source := .primary }).notify (.clockSourceChanged .primary .restored settled.state)
      else T
    takes (.restorePrimaryClock h) s
      (T.answered q h
        [ (decide (sup.state ≠ .failed ∧ T.clock.source = .primary), .wrongState, 0),
          (!T.clock.primaryPresent, .sourceActive, 0) ]
        ((switched.modSupervisor fun _ => settled).complete q h .ok (sup.state.code + 4 * T.clock.source.code)))

/-! ## Invariants -/

/-- R34: the law of the pair guard. No command makes both channels of an enabled pair active. -/
def Obligations.PairsAreNeverBothActive : Prop :=
  ∀ s s' : State, s.part.pairsSafe = true → step s = .next s' → s'.part.pairsSafe = true

/-- R5: each channel timeline stays ordered by effective time. -/
def Obligations.TimelinesStayOrdered : Prop :=
  ∀ s s' : State, s.part.timelinesOrdered → step s = .next s' → s'.part.timelinesOrdered

/-- R1, R4: no queue ever has more steps in the store than its quota, and the store never more steps than slots. The rest of the
invariant says where the store is empty. -/
def Obligations.QuotasAreKept : Prop :=
  ∀ s s' : State, s.part.quotasKept → s.part.storeBounded → step s = .next s' →
    s'.part.quotasKept ∧ s'.part.storeBounded

/-- R66: no command makes a channel a member of two domains, or splits an enabled pair. -/
def Obligations.DomainsStayApart : Prop :=
  ∀ s s' : State, s.part.domainsApart → step s = .next s' → s'.part.domainsApart

/-- R160, R161: the pending list never holds more than 16 notices, and the lost count is held at 65535. -/
def Obligations.NoticesStayBounded : Prop :=
  ∀ s s' : State, s.part.noticesBounded → step s = .next s' → s'.part.noticesBounded

/-- R28, R49, R68, R170: the invariants hold at reset. -/
def Obligations.InvariantsHoldAtReset : Prop :=
  State.reset.part.pairsSafe = true ∧ State.reset.part.timelinesOrdered ∧ State.reset.part.quotasKept ∧
    State.reset.part.storeBounded ∧ State.reset.part.domainsApart ∧ State.reset.part.noticesBounded
end

