-- ==== Sys2Proof/Laws/State.lean ====
section
/-!
SUPPORT. The state's field lemmas: what each named update of the part leaves in each field, and what an updated record
reads as. Proofs cite these and unfold no record update.
-/

namespace Sys2Proof.Machine

/-- An element of an updated vector. -/
@[simp] theorem updateAt_get {α : Type} {n : Nat} (v : Vector α n) (i j : Fin n) (f : α → α) :
    (updateAt v i f)[j] = if j = i then f v[i] else v[j] := by
  by_cases h : j = i
  · subst h; simp [updateAt]
  · have : i.val ≠ j.val := fun e => h (Fin.ext e.symm)
    simp [updateAt, h, this, Vector.getElem_set_ne]

namespace Part

/-! ### modChannel -/

@[simp] theorem modChannel_resetAsserted (p : Part) (c : Fin 32) (f : Channel → Channel) : (p.modChannel c f).resetAsserted = p.resetAsserted := rfl
@[simp] theorem modChannel_engine (p : Part) (c : Fin 32) (f : Channel → Channel) : (p.modChannel c f).engine = p.engine := rfl
@[simp] theorem modChannel_clock (p : Part) (c : Fin 32) (f : Channel → Channel) : (p.modChannel c f).clock = p.clock := rfl
@[simp] theorem modChannel_timelines (p : Part) (c : Fin 32) (f : Channel → Channel) : (p.modChannel c f).timelines = p.timelines := rfl
@[simp] theorem modChannel_table (p : Part) (c : Fin 32) (f : Channel → Channel) : (p.modChannel c f).table = p.table := rfl
@[simp] theorem modChannel_domains (p : Part) (c : Fin 32) (f : Channel → Channel) : (p.modChannel c f).domains = p.domains := rfl
@[simp] theorem modChannel_inputs (p : Part) (c : Fin 32) (f : Channel → Channel) : (p.modChannel c f).inputs = p.inputs := rfl
@[simp] theorem modChannel_command (p : Part) (c : Fin 32) (f : Channel → Channel) : (p.modChannel c f).command = p.command := rfl
@[simp] theorem modChannel_posting (p : Part) (c : Fin 32) (f : Channel → Channel) : (p.modChannel c f).posting = p.posting := rfl
@[simp] theorem modChannel_monitor (p : Part) (c : Fin 32) (f : Channel → Channel) : (p.modChannel c f).monitor = p.monitor := rfl
@[simp] theorem modChannel_freeIndex (p : Part) (c : Fin 32) (f : Channel → Channel) : (p.modChannel c f).freeIndex = p.freeIndex := rfl

/-! ### modPair -/

@[simp] theorem modPair_resetAsserted (p : Part) (k : Fin 16) (f : Pair → Pair) : (p.modPair k f).resetAsserted = p.resetAsserted := rfl
@[simp] theorem modPair_engine (p : Part) (k : Fin 16) (f : Pair → Pair) : (p.modPair k f).engine = p.engine := rfl
@[simp] theorem modPair_clock (p : Part) (k : Fin 16) (f : Pair → Pair) : (p.modPair k f).clock = p.clock := rfl
@[simp] theorem modPair_timelines (p : Part) (k : Fin 16) (f : Pair → Pair) : (p.modPair k f).timelines = p.timelines := rfl
@[simp] theorem modPair_table (p : Part) (k : Fin 16) (f : Pair → Pair) : (p.modPair k f).table = p.table := rfl
@[simp] theorem modPair_domains (p : Part) (k : Fin 16) (f : Pair → Pair) : (p.modPair k f).domains = p.domains := rfl
@[simp] theorem modPair_inputs (p : Part) (k : Fin 16) (f : Pair → Pair) : (p.modPair k f).inputs = p.inputs := rfl
@[simp] theorem modPair_command (p : Part) (k : Fin 16) (f : Pair → Pair) : (p.modPair k f).command = p.command := rfl
@[simp] theorem modPair_posting (p : Part) (k : Fin 16) (f : Pair → Pair) : (p.modPair k f).posting = p.posting := rfl
@[simp] theorem modPair_monitor (p : Part) (k : Fin 16) (f : Pair → Pair) : (p.modPair k f).monitor = p.monitor := rfl
@[simp] theorem modPair_freeIndex (p : Part) (k : Fin 16) (f : Pair → Pair) : (p.modPair k f).freeIndex = p.freeIndex := rfl

/-! ### setTimeline -/

@[simp] theorem setTimeline_resetAsserted (p : Part) (c : Fin 32) (tl : List Step) : (p.setTimeline c tl).resetAsserted = p.resetAsserted := rfl
@[simp] theorem setTimeline_engine (p : Part) (c : Fin 32) (tl : List Step) : (p.setTimeline c tl).engine = p.engine := rfl
@[simp] theorem setTimeline_clock (p : Part) (c : Fin 32) (tl : List Step) : (p.setTimeline c tl).clock = p.clock := rfl
@[simp] theorem setTimeline_output (p : Part) (c : Fin 32) (tl : List Step) : (p.setTimeline c tl).output = p.output := rfl
@[simp] theorem setTimeline_timelines (p : Part) (c : Fin 32) (tl : List Step) : (p.setTimeline c tl).timelines = updateAt p.timelines c fun _ => tl := rfl
@[simp] theorem setTimeline_table (p : Part) (c : Fin 32) (tl : List Step) : (p.setTimeline c tl).table = p.table := rfl
@[simp] theorem setTimeline_domains (p : Part) (c : Fin 32) (tl : List Step) : (p.setTimeline c tl).domains = p.domains := rfl
@[simp] theorem setTimeline_inputs (p : Part) (c : Fin 32) (tl : List Step) : (p.setTimeline c tl).inputs = p.inputs := rfl
@[simp] theorem setTimeline_command (p : Part) (c : Fin 32) (tl : List Step) : (p.setTimeline c tl).command = p.command := rfl
@[simp] theorem setTimeline_posting (p : Part) (c : Fin 32) (tl : List Step) : (p.setTimeline c tl).posting = p.posting := rfl
@[simp] theorem setTimeline_monitor (p : Part) (c : Fin 32) (tl : List Step) : (p.setTimeline c tl).monitor = p.monitor := rfl
@[simp] theorem setTimeline_freeIndex (p : Part) (c : Fin 32) (tl : List Step) : (p.setTimeline c tl).freeIndex = p.freeIndex := rfl

/-! ### setEntry -/

@[simp] theorem setEntry_resetAsserted (p : Part) (i : Fin 64) (e : Option TableEntry) : (p.setEntry i e).resetAsserted = p.resetAsserted := rfl
@[simp] theorem setEntry_engine (p : Part) (i : Fin 64) (e : Option TableEntry) : (p.setEntry i e).engine = p.engine := rfl
@[simp] theorem setEntry_clock (p : Part) (i : Fin 64) (e : Option TableEntry) : (p.setEntry i e).clock = p.clock := rfl
@[simp] theorem setEntry_output (p : Part) (i : Fin 64) (e : Option TableEntry) : (p.setEntry i e).output = p.output := rfl
@[simp] theorem setEntry_timelines (p : Part) (i : Fin 64) (e : Option TableEntry) : (p.setEntry i e).timelines = p.timelines := rfl
@[simp] theorem setEntry_table (p : Part) (i : Fin 64) (e : Option TableEntry) : (p.setEntry i e).table = updateAt p.table i fun _ => e := rfl
@[simp] theorem setEntry_domains (p : Part) (i : Fin 64) (e : Option TableEntry) : (p.setEntry i e).domains = p.domains := rfl
@[simp] theorem setEntry_inputs (p : Part) (i : Fin 64) (e : Option TableEntry) : (p.setEntry i e).inputs = p.inputs := rfl
@[simp] theorem setEntry_command (p : Part) (i : Fin 64) (e : Option TableEntry) : (p.setEntry i e).command = p.command := rfl
@[simp] theorem setEntry_posting (p : Part) (i : Fin 64) (e : Option TableEntry) : (p.setEntry i e).posting = p.posting := rfl
@[simp] theorem setEntry_monitor (p : Part) (i : Fin 64) (e : Option TableEntry) : (p.setEntry i e).monitor = p.monitor := rfl
@[simp] theorem setEntry_freeIndex (p : Part) (i : Fin 64) (e : Option TableEntry) : (p.setEntry i e).freeIndex = p.freeIndex := rfl

/-! ### modDomain -/

@[simp] theorem modDomain_resetAsserted (p : Part) (d : Fin 8) (f : Domain → Domain) : (p.modDomain d f).resetAsserted = p.resetAsserted := rfl
@[simp] theorem modDomain_engine (p : Part) (d : Fin 8) (f : Domain → Domain) : (p.modDomain d f).engine = p.engine := rfl
@[simp] theorem modDomain_clock (p : Part) (d : Fin 8) (f : Domain → Domain) : (p.modDomain d f).clock = p.clock := rfl
@[simp] theorem modDomain_output (p : Part) (d : Fin 8) (f : Domain → Domain) : (p.modDomain d f).output = p.output := rfl
@[simp] theorem modDomain_timelines (p : Part) (d : Fin 8) (f : Domain → Domain) : (p.modDomain d f).timelines = p.timelines := rfl
@[simp] theorem modDomain_table (p : Part) (d : Fin 8) (f : Domain → Domain) : (p.modDomain d f).table = p.table := rfl
@[simp] theorem modDomain_domains (p : Part) (d : Fin 8) (f : Domain → Domain) : (p.modDomain d f).domains = updateAt p.domains d f := rfl
@[simp] theorem modDomain_inputs (p : Part) (d : Fin 8) (f : Domain → Domain) : (p.modDomain d f).inputs = p.inputs := rfl
@[simp] theorem modDomain_command (p : Part) (d : Fin 8) (f : Domain → Domain) : (p.modDomain d f).command = p.command := rfl
@[simp] theorem modDomain_posting (p : Part) (d : Fin 8) (f : Domain → Domain) : (p.modDomain d f).posting = p.posting := rfl
@[simp] theorem modDomain_monitor (p : Part) (d : Fin 8) (f : Domain → Domain) : (p.modDomain d f).monitor = p.monitor := rfl
@[simp] theorem modDomain_freeIndex (p : Part) (d : Fin 8) (f : Domain → Domain) : (p.modDomain d f).freeIndex = p.freeIndex := rfl

/-! ### modInput -/

@[simp] theorem modInput_resetAsserted (p : Part) (n : Fin 16) (f : FaultInput → FaultInput) : (p.modInput n f).resetAsserted = p.resetAsserted := rfl
@[simp] theorem modInput_engine (p : Part) (n : Fin 16) (f : FaultInput → FaultInput) : (p.modInput n f).engine = p.engine := rfl
@[simp] theorem modInput_clock (p : Part) (n : Fin 16) (f : FaultInput → FaultInput) : (p.modInput n f).clock = p.clock := rfl
@[simp] theorem modInput_output (p : Part) (n : Fin 16) (f : FaultInput → FaultInput) : (p.modInput n f).output = p.output := rfl
@[simp] theorem modInput_timelines (p : Part) (n : Fin 16) (f : FaultInput → FaultInput) : (p.modInput n f).timelines = p.timelines := rfl
@[simp] theorem modInput_table (p : Part) (n : Fin 16) (f : FaultInput → FaultInput) : (p.modInput n f).table = p.table := rfl
@[simp] theorem modInput_domains (p : Part) (n : Fin 16) (f : FaultInput → FaultInput) : (p.modInput n f).domains = p.domains := rfl
@[simp] theorem modInput_inputs (p : Part) (n : Fin 16) (f : FaultInput → FaultInput) : (p.modInput n f).inputs = updateAt p.inputs n f := rfl
@[simp] theorem modInput_command (p : Part) (n : Fin 16) (f : FaultInput → FaultInput) : (p.modInput n f).command = p.command := rfl
@[simp] theorem modInput_posting (p : Part) (n : Fin 16) (f : FaultInput → FaultInput) : (p.modInput n f).posting = p.posting := rfl
@[simp] theorem modInput_monitor (p : Part) (n : Fin 16) (f : FaultInput → FaultInput) : (p.modInput n f).monitor = p.monitor := rfl
@[simp] theorem modInput_freeIndex (p : Part) (n : Fin 16) (f : FaultInput → FaultInput) : (p.modInput n f).freeIndex = p.freeIndex := rfl

/-! ### modClock -/

@[simp] theorem modClock_resetAsserted (p : Part) (f : Clock → Clock) : (p.modClock f).resetAsserted = p.resetAsserted := rfl
@[simp] theorem modClock_engine (p : Part) (f : Clock → Clock) : (p.modClock f).engine = p.engine := rfl
@[simp] theorem modClock_clock (p : Part) (f : Clock → Clock) : (p.modClock f).clock = f p.clock := rfl
@[simp] theorem modClock_output (p : Part) (f : Clock → Clock) : (p.modClock f).output = p.output := rfl
@[simp] theorem modClock_timelines (p : Part) (f : Clock → Clock) : (p.modClock f).timelines = p.timelines := rfl
@[simp] theorem modClock_table (p : Part) (f : Clock → Clock) : (p.modClock f).table = p.table := rfl
@[simp] theorem modClock_domains (p : Part) (f : Clock → Clock) : (p.modClock f).domains = p.domains := rfl
@[simp] theorem modClock_inputs (p : Part) (f : Clock → Clock) : (p.modClock f).inputs = p.inputs := rfl
@[simp] theorem modClock_command (p : Part) (f : Clock → Clock) : (p.modClock f).command = p.command := rfl
@[simp] theorem modClock_posting (p : Part) (f : Clock → Clock) : (p.modClock f).posting = p.posting := rfl
@[simp] theorem modClock_monitor (p : Part) (f : Clock → Clock) : (p.modClock f).monitor = p.monitor := rfl
@[simp] theorem modClock_freeIndex (p : Part) (f : Clock → Clock) : (p.modClock f).freeIndex = p.freeIndex := rfl

/-! ### modSupervisor -/

@[simp] theorem modSupervisor_resetAsserted (p : Part) (f : Supervisor → Supervisor) : (p.modSupervisor f).resetAsserted = p.resetAsserted := rfl
@[simp] theorem modSupervisor_engine (p : Part) (f : Supervisor → Supervisor) : (p.modSupervisor f).engine = p.engine := rfl
@[simp] theorem modSupervisor_output (p : Part) (f : Supervisor → Supervisor) : (p.modSupervisor f).output = p.output := rfl
@[simp] theorem modSupervisor_timelines (p : Part) (f : Supervisor → Supervisor) : (p.modSupervisor f).timelines = p.timelines := rfl
@[simp] theorem modSupervisor_table (p : Part) (f : Supervisor → Supervisor) : (p.modSupervisor f).table = p.table := rfl
@[simp] theorem modSupervisor_domains (p : Part) (f : Supervisor → Supervisor) : (p.modSupervisor f).domains = p.domains := rfl
@[simp] theorem modSupervisor_inputs (p : Part) (f : Supervisor → Supervisor) : (p.modSupervisor f).inputs = p.inputs := rfl
@[simp] theorem modSupervisor_command (p : Part) (f : Supervisor → Supervisor) : (p.modSupervisor f).command = p.command := rfl
@[simp] theorem modSupervisor_posting (p : Part) (f : Supervisor → Supervisor) : (p.modSupervisor f).posting = p.posting := rfl
@[simp] theorem modSupervisor_monitor (p : Part) (f : Supervisor → Supervisor) : (p.modSupervisor f).monitor = p.monitor := rfl
@[simp] theorem modSupervisor_freeIndex (p : Part) (f : Supervisor → Supervisor) : (p.modSupervisor f).freeIndex = p.freeIndex := rfl

/-! ### modCommand -/

@[simp] theorem modCommand_resetAsserted (p : Part) (f : CommandUnit → CommandUnit) : (p.modCommand f).resetAsserted = p.resetAsserted := rfl
@[simp] theorem modCommand_engine (p : Part) (f : CommandUnit → CommandUnit) : (p.modCommand f).engine = p.engine := rfl
@[simp] theorem modCommand_clock (p : Part) (f : CommandUnit → CommandUnit) : (p.modCommand f).clock = p.clock := rfl
@[simp] theorem modCommand_output (p : Part) (f : CommandUnit → CommandUnit) : (p.modCommand f).output = p.output := rfl
@[simp] theorem modCommand_timelines (p : Part) (f : CommandUnit → CommandUnit) : (p.modCommand f).timelines = p.timelines := rfl
@[simp] theorem modCommand_table (p : Part) (f : CommandUnit → CommandUnit) : (p.modCommand f).table = p.table := rfl
@[simp] theorem modCommand_domains (p : Part) (f : CommandUnit → CommandUnit) : (p.modCommand f).domains = p.domains := rfl
@[simp] theorem modCommand_inputs (p : Part) (f : CommandUnit → CommandUnit) : (p.modCommand f).inputs = p.inputs := rfl
@[simp] theorem modCommand_command (p : Part) (f : CommandUnit → CommandUnit) : (p.modCommand f).command = f p.command := rfl
@[simp] theorem modCommand_posting (p : Part) (f : CommandUnit → CommandUnit) : (p.modCommand f).posting = p.posting := rfl
@[simp] theorem modCommand_monitor (p : Part) (f : CommandUnit → CommandUnit) : (p.modCommand f).monitor = p.monitor := rfl
@[simp] theorem modCommand_freeIndex (p : Part) (f : CommandUnit → CommandUnit) : (p.modCommand f).freeIndex = p.freeIndex := rfl

/-! ### modQueue -/

@[simp] theorem modQueue_resetAsserted (p : Part) (q : Fin 8) (f : QueueContext → QueueContext) : (p.modQueue q f).resetAsserted = p.resetAsserted := rfl
@[simp] theorem modQueue_engine (p : Part) (q : Fin 8) (f : QueueContext → QueueContext) : (p.modQueue q f).engine = p.engine := rfl
@[simp] theorem modQueue_clock (p : Part) (q : Fin 8) (f : QueueContext → QueueContext) : (p.modQueue q f).clock = p.clock := rfl
@[simp] theorem modQueue_output (p : Part) (q : Fin 8) (f : QueueContext → QueueContext) : (p.modQueue q f).output = p.output := rfl
@[simp] theorem modQueue_timelines (p : Part) (q : Fin 8) (f : QueueContext → QueueContext) : (p.modQueue q f).timelines = p.timelines := rfl
@[simp] theorem modQueue_table (p : Part) (q : Fin 8) (f : QueueContext → QueueContext) : (p.modQueue q f).table = p.table := rfl
@[simp] theorem modQueue_domains (p : Part) (q : Fin 8) (f : QueueContext → QueueContext) : (p.modQueue q f).domains = p.domains := rfl
@[simp] theorem modQueue_inputs (p : Part) (q : Fin 8) (f : QueueContext → QueueContext) : (p.modQueue q f).inputs = p.inputs := rfl
@[simp] theorem modQueue_posting (p : Part) (q : Fin 8) (f : QueueContext → QueueContext) : (p.modQueue q f).posting = p.posting := rfl
@[simp] theorem modQueue_monitor (p : Part) (q : Fin 8) (f : QueueContext → QueueContext) : (p.modQueue q f).monitor = p.monitor := rfl
@[simp] theorem modQueue_freeIndex (p : Part) (q : Fin 8) (f : QueueContext → QueueContext) : (p.modQueue q f).freeIndex = p.freeIndex := rfl

/-! ### setPath -/

@[simp] theorem setPath_resetAsserted (p : Part) (path : CommandPath) : (p.setPath path).resetAsserted = p.resetAsserted := rfl
@[simp] theorem setPath_engine (p : Part) (path : CommandPath) : (p.setPath path).engine = p.engine := rfl
@[simp] theorem setPath_clock (p : Part) (path : CommandPath) : (p.setPath path).clock = p.clock := rfl
@[simp] theorem setPath_output (p : Part) (path : CommandPath) : (p.setPath path).output = p.output := rfl
@[simp] theorem setPath_timelines (p : Part) (path : CommandPath) : (p.setPath path).timelines = p.timelines := rfl
@[simp] theorem setPath_table (p : Part) (path : CommandPath) : (p.setPath path).table = p.table := rfl
@[simp] theorem setPath_domains (p : Part) (path : CommandPath) : (p.setPath path).domains = p.domains := rfl
@[simp] theorem setPath_inputs (p : Part) (path : CommandPath) : (p.setPath path).inputs = p.inputs := rfl
@[simp] theorem setPath_posting (p : Part) (path : CommandPath) : (p.setPath path).posting = p.posting := rfl
@[simp] theorem setPath_monitor (p : Part) (path : CommandPath) : (p.setPath path).monitor = p.monitor := rfl
@[simp] theorem setPath_freeIndex (p : Part) (path : CommandPath) : (p.setPath path).freeIndex = p.freeIndex := rfl

/-! ### modPosting -/

@[simp] theorem modPosting_resetAsserted (p : Part) (f : Posting → Posting) : (p.modPosting f).resetAsserted = p.resetAsserted := rfl
@[simp] theorem modPosting_engine (p : Part) (f : Posting → Posting) : (p.modPosting f).engine = p.engine := rfl
@[simp] theorem modPosting_clock (p : Part) (f : Posting → Posting) : (p.modPosting f).clock = p.clock := rfl
@[simp] theorem modPosting_output (p : Part) (f : Posting → Posting) : (p.modPosting f).output = p.output := rfl
@[simp] theorem modPosting_timelines (p : Part) (f : Posting → Posting) : (p.modPosting f).timelines = p.timelines := rfl
@[simp] theorem modPosting_table (p : Part) (f : Posting → Posting) : (p.modPosting f).table = p.table := rfl
@[simp] theorem modPosting_domains (p : Part) (f : Posting → Posting) : (p.modPosting f).domains = p.domains := rfl
@[simp] theorem modPosting_inputs (p : Part) (f : Posting → Posting) : (p.modPosting f).inputs = p.inputs := rfl
@[simp] theorem modPosting_command (p : Part) (f : Posting → Posting) : (p.modPosting f).command = p.command := rfl
@[simp] theorem modPosting_posting (p : Part) (f : Posting → Posting) : (p.modPosting f).posting = f p.posting := rfl
@[simp] theorem modPosting_monitor (p : Part) (f : Posting → Posting) : (p.modPosting f).monitor = p.monitor := rfl
@[simp] theorem modPosting_freeIndex (p : Part) (f : Posting → Posting) : (p.modPosting f).freeIndex = p.freeIndex := rfl

/-! ### modCq -/

@[simp] theorem modCq_resetAsserted (p : Part) (n : Fin 4) (f : CompletionContext → CompletionContext) : (p.modCq n f).resetAsserted = p.resetAsserted := rfl
@[simp] theorem modCq_engine (p : Part) (n : Fin 4) (f : CompletionContext → CompletionContext) : (p.modCq n f).engine = p.engine := rfl
@[simp] theorem modCq_clock (p : Part) (n : Fin 4) (f : CompletionContext → CompletionContext) : (p.modCq n f).clock = p.clock := rfl
@[simp] theorem modCq_output (p : Part) (n : Fin 4) (f : CompletionContext → CompletionContext) : (p.modCq n f).output = p.output := rfl
@[simp] theorem modCq_timelines (p : Part) (n : Fin 4) (f : CompletionContext → CompletionContext) : (p.modCq n f).timelines = p.timelines := rfl
@[simp] theorem modCq_table (p : Part) (n : Fin 4) (f : CompletionContext → CompletionContext) : (p.modCq n f).table = p.table := rfl
@[simp] theorem modCq_domains (p : Part) (n : Fin 4) (f : CompletionContext → CompletionContext) : (p.modCq n f).domains = p.domains := rfl
@[simp] theorem modCq_inputs (p : Part) (n : Fin 4) (f : CompletionContext → CompletionContext) : (p.modCq n f).inputs = p.inputs := rfl
@[simp] theorem modCq_command (p : Part) (n : Fin 4) (f : CompletionContext → CompletionContext) : (p.modCq n f).command = p.command := rfl
@[simp] theorem modCq_monitor (p : Part) (n : Fin 4) (f : CompletionContext → CompletionContext) : (p.modCq n f).monitor = p.monitor := rfl
@[simp] theorem modCq_freeIndex (p : Part) (n : Fin 4) (f : CompletionContext → CompletionContext) : (p.modCq n f).freeIndex = p.freeIndex := rfl

/-! ### modRing -/

@[simp] theorem modRing_resetAsserted (p : Part) (f : NoticeRing → NoticeRing) : (p.modRing f).resetAsserted = p.resetAsserted := rfl
@[simp] theorem modRing_engine (p : Part) (f : NoticeRing → NoticeRing) : (p.modRing f).engine = p.engine := rfl
@[simp] theorem modRing_clock (p : Part) (f : NoticeRing → NoticeRing) : (p.modRing f).clock = p.clock := rfl
@[simp] theorem modRing_output (p : Part) (f : NoticeRing → NoticeRing) : (p.modRing f).output = p.output := rfl
@[simp] theorem modRing_timelines (p : Part) (f : NoticeRing → NoticeRing) : (p.modRing f).timelines = p.timelines := rfl
@[simp] theorem modRing_table (p : Part) (f : NoticeRing → NoticeRing) : (p.modRing f).table = p.table := rfl
@[simp] theorem modRing_domains (p : Part) (f : NoticeRing → NoticeRing) : (p.modRing f).domains = p.domains := rfl
@[simp] theorem modRing_inputs (p : Part) (f : NoticeRing → NoticeRing) : (p.modRing f).inputs = p.inputs := rfl
@[simp] theorem modRing_command (p : Part) (f : NoticeRing → NoticeRing) : (p.modRing f).command = p.command := rfl
@[simp] theorem modRing_monitor (p : Part) (f : NoticeRing → NoticeRing) : (p.modRing f).monitor = p.monitor := rfl
@[simp] theorem modRing_freeIndex (p : Part) (f : NoticeRing → NoticeRing) : (p.modRing f).freeIndex = p.freeIndex := rfl

/-! ### setCause -/

@[simp] theorem setCause_resetAsserted (p : Part) (cause : BitVec 7) : (p.setCause cause).resetAsserted = p.resetAsserted := rfl
@[simp] theorem setCause_engine (p : Part) (cause : BitVec 7) : (p.setCause cause).engine = p.engine := rfl
@[simp] theorem setCause_clock (p : Part) (cause : BitVec 7) : (p.setCause cause).clock = p.clock := rfl
@[simp] theorem setCause_output (p : Part) (cause : BitVec 7) : (p.setCause cause).output = p.output := rfl
@[simp] theorem setCause_timelines (p : Part) (cause : BitVec 7) : (p.setCause cause).timelines = p.timelines := rfl
@[simp] theorem setCause_table (p : Part) (cause : BitVec 7) : (p.setCause cause).table = p.table := rfl
@[simp] theorem setCause_domains (p : Part) (cause : BitVec 7) : (p.setCause cause).domains = p.domains := rfl
@[simp] theorem setCause_inputs (p : Part) (cause : BitVec 7) : (p.setCause cause).inputs = p.inputs := rfl
@[simp] theorem setCause_command (p : Part) (cause : BitVec 7) : (p.setCause cause).command = p.command := rfl
@[simp] theorem setCause_monitor (p : Part) (cause : BitVec 7) : (p.setCause cause).monitor = p.monitor := rfl
@[simp] theorem setCause_freeIndex (p : Part) (cause : BitVec 7) : (p.setCause cause).freeIndex = p.freeIndex := rfl

/-! ### modMonitor -/

@[simp] theorem modMonitor_resetAsserted (p : Part) (f : Monitor → Monitor) : (p.modMonitor f).resetAsserted = p.resetAsserted := rfl
@[simp] theorem modMonitor_engine (p : Part) (f : Monitor → Monitor) : (p.modMonitor f).engine = p.engine := rfl
@[simp] theorem modMonitor_clock (p : Part) (f : Monitor → Monitor) : (p.modMonitor f).clock = p.clock := rfl
@[simp] theorem modMonitor_output (p : Part) (f : Monitor → Monitor) : (p.modMonitor f).output = p.output := rfl
@[simp] theorem modMonitor_timelines (p : Part) (f : Monitor → Monitor) : (p.modMonitor f).timelines = p.timelines := rfl
@[simp] theorem modMonitor_table (p : Part) (f : Monitor → Monitor) : (p.modMonitor f).table = p.table := rfl
@[simp] theorem modMonitor_domains (p : Part) (f : Monitor → Monitor) : (p.modMonitor f).domains = p.domains := rfl
@[simp] theorem modMonitor_inputs (p : Part) (f : Monitor → Monitor) : (p.modMonitor f).inputs = p.inputs := rfl
@[simp] theorem modMonitor_command (p : Part) (f : Monitor → Monitor) : (p.modMonitor f).command = p.command := rfl
@[simp] theorem modMonitor_posting (p : Part) (f : Monitor → Monitor) : (p.modMonitor f).posting = p.posting := rfl
@[simp] theorem modMonitor_monitor (p : Part) (f : Monitor → Monitor) : (p.modMonitor f).monitor = f p.monitor := rfl
@[simp] theorem modMonitor_freeIndex (p : Part) (f : Monitor → Monitor) : (p.modMonitor f).freeIndex = p.freeIndex := rfl

/-! ### modEngine -/

@[simp] theorem modEngine_resetAsserted (p : Part) (f : Engine → Engine) : (p.modEngine f).resetAsserted = p.resetAsserted := rfl
@[simp] theorem modEngine_engine (p : Part) (f : Engine → Engine) : (p.modEngine f).engine = f p.engine := rfl
@[simp] theorem modEngine_clock (p : Part) (f : Engine → Engine) : (p.modEngine f).clock = p.clock := rfl
@[simp] theorem modEngine_output (p : Part) (f : Engine → Engine) : (p.modEngine f).output = p.output := rfl
@[simp] theorem modEngine_timelines (p : Part) (f : Engine → Engine) : (p.modEngine f).timelines = p.timelines := rfl
@[simp] theorem modEngine_table (p : Part) (f : Engine → Engine) : (p.modEngine f).table = p.table := rfl
@[simp] theorem modEngine_domains (p : Part) (f : Engine → Engine) : (p.modEngine f).domains = p.domains := rfl
@[simp] theorem modEngine_inputs (p : Part) (f : Engine → Engine) : (p.modEngine f).inputs = p.inputs := rfl
@[simp] theorem modEngine_command (p : Part) (f : Engine → Engine) : (p.modEngine f).command = p.command := rfl
@[simp] theorem modEngine_posting (p : Part) (f : Engine → Engine) : (p.modEngine f).posting = p.posting := rfl
@[simp] theorem modEngine_monitor (p : Part) (f : Engine → Engine) : (p.modEngine f).monitor = p.monitor := rfl
@[simp] theorem modEngine_freeIndex (p : Part) (f : Engine → Engine) : (p.modEngine f).freeIndex = p.freeIndex := rfl

/-! ### The changed half of the two-part blocks -/

@[simp] theorem modChannel_pairs (p : Part) (c : Fin 32) (f : Channel → Channel) :
    (p.modChannel c f).output.pairs = p.output.pairs := rfl
@[simp] theorem modChannel_channels (p : Part) (c : Fin 32) (f : Channel → Channel) :
    (p.modChannel c f).output.channels = updateAt p.output.channels c f := rfl
@[simp] theorem modPair_pairs (p : Part) (k : Fin 16) (f : Pair → Pair) :
    (p.modPair k f).output.pairs = updateAt p.output.pairs k f := rfl
@[simp] theorem modPair_channels (p : Part) (k : Fin 16) (f : Pair → Pair) :
    (p.modPair k f).output.channels = p.output.channels := rfl
@[simp] theorem modQueue_path (p : Part) (q : Fin 8) (f : QueueContext → QueueContext) :
    (p.modQueue q f).command.path = p.command.path := rfl
@[simp] theorem modQueue_queues (p : Part) (q : Fin 8) (f : QueueContext → QueueContext) :
    (p.modQueue q f).command.queues = updateAt p.command.queues q f := rfl
@[simp] theorem setPath_path (p : Part) (path : CommandPath) : (p.setPath path).command.path = path := rfl
@[simp] theorem setPath_queues (p : Part) (path : CommandPath) :
    (p.setPath path).command.queues = p.command.queues := rfl
@[simp] theorem modSupervisor_time (p : Part) (f : Supervisor → Supervisor) :
    (p.modSupervisor f).clock.time = p.clock.time := rfl
@[simp] theorem modSupervisor_supervisor (p : Part) (f : Supervisor → Supervisor) :
    (p.modSupervisor f).clock.supervisor = f p.clock.supervisor := rfl

/-! ### Reading an updated record -/

theorem channel_modChannel (p : Part) (c c' : Fin 32) (f : Channel → Channel) :
    (p.modChannel c f).channel c' = if c' = c then f (p.channel c) else p.channel c' := by
  simp only [channel, modChannel_channels, updateAt_get]
theorem pair_modPair (p : Part) (k k' : Fin 16) (f : Pair → Pair) :
    (p.modPair k f).pair k' = if k' = k then f (p.pair k) else p.pair k' := by
  simp only [pair, modPair_pairs, updateAt_get]
theorem timeline_setTimeline (p : Part) (c c' : Fin 32) (tl : List Step) :
    (p.setTimeline c tl).timeline c' = if c' = c then tl else p.timeline c' := by
  simp only [timeline, setTimeline_timelines, updateAt_get]
theorem entry_setEntry (p : Part) (i i' : Fin 64) (e : Option TableEntry) :
    (p.setEntry i e).entry i' = if i' = i then e else p.entry i' := by
  simp only [entry, setEntry_table, updateAt_get]
theorem domain_modDomain (p : Part) (d d' : Fin 8) (f : Domain → Domain) :
    (p.modDomain d f).domain d' = if d' = d then f (p.domain d) else p.domain d' := by
  simp only [domain, modDomain_domains, updateAt_get]
theorem input_modInput (p : Part) (n n' : Fin 16) (f : FaultInput → FaultInput) :
    (p.modInput n f).input n' = if n' = n then f (p.input n) else p.input n' := by
  simp only [input, modInput_inputs, updateAt_get]
theorem queue_modQueue (p : Part) (q q' : Fin 8) (f : QueueContext → QueueContext) :
    (p.modQueue q f).queue q' = if q' = q then f (p.queue q) else p.queue q' := by
  simp only [queue, modQueue_queues, updateAt_get]
theorem cq_modCq (p : Part) (n n' : Fin 4) (f : CompletionContext → CompletionContext) :
    (p.modCq n f).cq n' = if n' = n then f (p.cq n) else p.cq n' := by
  simp only [cq, modCq, modPosting_posting, updateAt_get]

end Part

end Sys2Proof.Machine
end

