-- ==== Sys2Proof/Laws/Frames.lean ====
section
/-!
SUPPORT. The frames of the shared operations of Machine/Ops.lean: the fields of the part each of them leaves as they were.
-/

namespace Sys2Proof.Machine

/-- What every step of a fold keeps, the fold keeps. -/
theorem foldl_keeps {α β γ : Type} (g : α → γ) (f : α → β → α) (h : ∀ a b, g (f a b) = g a) (l : List β) (a : α) :
    g (l.foldl f a) = g a := by
  induction l generalizing a with
  | nil => rfl
  | cons b l ih => rw [List.foldl_cons, ih, h]

namespace Part

/-! ### issueWrite -/

@[simp] theorem issueWrite_resetAsserted (p : Part) (purpose : AccessPurpose) (ring : FatalRing) (address : Nat) (data : List Byte) : (p.issueWrite purpose ring address data).resetAsserted = p.resetAsserted := by unfold issueWrite; split <;> rfl
@[simp] theorem issueWrite_engine (p : Part) (purpose : AccessPurpose) (ring : FatalRing) (address : Nat) (data : List Byte) : (p.issueWrite purpose ring address data).engine = p.engine := by unfold issueWrite; split <;> rfl
@[simp] theorem issueWrite_clock (p : Part) (purpose : AccessPurpose) (ring : FatalRing) (address : Nat) (data : List Byte) : (p.issueWrite purpose ring address data).clock = p.clock := by unfold issueWrite; split <;> rfl
@[simp] theorem issueWrite_output (p : Part) (purpose : AccessPurpose) (ring : FatalRing) (address : Nat) (data : List Byte) : (p.issueWrite purpose ring address data).output = p.output := by unfold issueWrite; split <;> rfl
@[simp] theorem issueWrite_timelines (p : Part) (purpose : AccessPurpose) (ring : FatalRing) (address : Nat) (data : List Byte) : (p.issueWrite purpose ring address data).timelines = p.timelines := by unfold issueWrite; split <;> rfl
@[simp] theorem issueWrite_table (p : Part) (purpose : AccessPurpose) (ring : FatalRing) (address : Nat) (data : List Byte) : (p.issueWrite purpose ring address data).table = p.table := by unfold issueWrite; split <;> rfl
@[simp] theorem issueWrite_domains (p : Part) (purpose : AccessPurpose) (ring : FatalRing) (address : Nat) (data : List Byte) : (p.issueWrite purpose ring address data).domains = p.domains := by unfold issueWrite; split <;> rfl
@[simp] theorem issueWrite_inputs (p : Part) (purpose : AccessPurpose) (ring : FatalRing) (address : Nat) (data : List Byte) : (p.issueWrite purpose ring address data).inputs = p.inputs := by unfold issueWrite; split <;> rfl
@[simp] theorem issueWrite_command (p : Part) (purpose : AccessPurpose) (ring : FatalRing) (address : Nat) (data : List Byte) : (p.issueWrite purpose ring address data).command = p.command := by unfold issueWrite; split <;> rfl
@[simp] theorem issueWrite_freeIndex (p : Part) (purpose : AccessPurpose) (ring : FatalRing) (address : Nat) (data : List Byte) : (p.issueWrite purpose ring address data).freeIndex = p.freeIndex := by unfold issueWrite; split <;> rfl

/-! ### issueCompletion -/

@[simp] theorem issueCompletion_resetAsserted (p : Part) (n : Fin 4) (c : Completion) : (p.issueCompletion n c).resetAsserted = p.resetAsserted := by simp [issueCompletion]
@[simp] theorem issueCompletion_engine (p : Part) (n : Fin 4) (c : Completion) : (p.issueCompletion n c).engine = p.engine := by simp [issueCompletion]
@[simp] theorem issueCompletion_clock (p : Part) (n : Fin 4) (c : Completion) : (p.issueCompletion n c).clock = p.clock := by simp [issueCompletion]
@[simp] theorem issueCompletion_output (p : Part) (n : Fin 4) (c : Completion) : (p.issueCompletion n c).output = p.output := by simp [issueCompletion]
@[simp] theorem issueCompletion_timelines (p : Part) (n : Fin 4) (c : Completion) : (p.issueCompletion n c).timelines = p.timelines := by simp [issueCompletion]
@[simp] theorem issueCompletion_table (p : Part) (n : Fin 4) (c : Completion) : (p.issueCompletion n c).table = p.table := by simp [issueCompletion]
@[simp] theorem issueCompletion_domains (p : Part) (n : Fin 4) (c : Completion) : (p.issueCompletion n c).domains = p.domains := by simp [issueCompletion]
@[simp] theorem issueCompletion_inputs (p : Part) (n : Fin 4) (c : Completion) : (p.issueCompletion n c).inputs = p.inputs := by simp [issueCompletion]
@[simp] theorem issueCompletion_command (p : Part) (n : Fin 4) (c : Completion) : (p.issueCompletion n c).command = p.command := by simp [issueCompletion]
@[simp] theorem issueCompletion_freeIndex (p : Part) (n : Fin 4) (c : Completion) : (p.issueCompletion n c).freeIndex = p.freeIndex := by simp [issueCompletion]

/-! ### issueNotice -/

@[simp] theorem issueNotice_resetAsserted (p : Part) (n : Notice) : (p.issueNotice n).resetAsserted = p.resetAsserted := by simp [issueNotice]
@[simp] theorem issueNotice_engine (p : Part) (n : Notice) : (p.issueNotice n).engine = p.engine := by simp [issueNotice]
@[simp] theorem issueNotice_clock (p : Part) (n : Notice) : (p.issueNotice n).clock = p.clock := by simp [issueNotice]
@[simp] theorem issueNotice_output (p : Part) (n : Notice) : (p.issueNotice n).output = p.output := by simp [issueNotice]
@[simp] theorem issueNotice_timelines (p : Part) (n : Notice) : (p.issueNotice n).timelines = p.timelines := by simp [issueNotice]
@[simp] theorem issueNotice_table (p : Part) (n : Notice) : (p.issueNotice n).table = p.table := by simp [issueNotice]
@[simp] theorem issueNotice_domains (p : Part) (n : Notice) : (p.issueNotice n).domains = p.domains := by simp [issueNotice]
@[simp] theorem issueNotice_inputs (p : Part) (n : Notice) : (p.issueNotice n).inputs = p.inputs := by simp [issueNotice]
@[simp] theorem issueNotice_command (p : Part) (n : Notice) : (p.issueNotice n).command = p.command := by simp [issueNotice]
@[simp] theorem issueNotice_freeIndex (p : Part) (n : Notice) : (p.issueNotice n).freeIndex = p.freeIndex := by simp [issueNotice]

/-! ### issueNext -/

@[simp] theorem issueNext_resetAsserted (p : Part) : (p.issueNext).resetAsserted = p.resetAsserted := by
  unfold issueNext; repeat' split
  all_goals simp
@[simp] theorem issueNext_engine (p : Part) : (p.issueNext).engine = p.engine := by
  unfold issueNext; repeat' split
  all_goals simp
@[simp] theorem issueNext_clock (p : Part) : (p.issueNext).clock = p.clock := by
  unfold issueNext; repeat' split
  all_goals simp
@[simp] theorem issueNext_output (p : Part) : (p.issueNext).output = p.output := by
  unfold issueNext; repeat' split
  all_goals simp
@[simp] theorem issueNext_timelines (p : Part) : (p.issueNext).timelines = p.timelines := by
  unfold issueNext; repeat' split
  all_goals simp
@[simp] theorem issueNext_table (p : Part) : (p.issueNext).table = p.table := by
  unfold issueNext; repeat' split
  all_goals simp
@[simp] theorem issueNext_domains (p : Part) : (p.issueNext).domains = p.domains := by
  unfold issueNext; repeat' split
  all_goals simp
@[simp] theorem issueNext_inputs (p : Part) : (p.issueNext).inputs = p.inputs := by
  unfold issueNext; repeat' split
  all_goals simp
@[simp] theorem issueNext_command (p : Part) : (p.issueNext).command = p.command := by
  unfold issueNext; repeat' split
  all_goals simp
@[simp] theorem issueNext_freeIndex (p : Part) : (p.issueNext).freeIndex = p.freeIndex := by
  unfold issueNext; repeat' split
  all_goals simp

/-! ### joinWriteList -/

@[simp] theorem joinWriteList_resetAsserted (p : Part) (i : Item) : (p.joinWriteList i).resetAsserted = p.resetAsserted := by simp [joinWriteList]
@[simp] theorem joinWriteList_engine (p : Part) (i : Item) : (p.joinWriteList i).engine = p.engine := by simp [joinWriteList]
@[simp] theorem joinWriteList_clock (p : Part) (i : Item) : (p.joinWriteList i).clock = p.clock := by simp [joinWriteList]
@[simp] theorem joinWriteList_output (p : Part) (i : Item) : (p.joinWriteList i).output = p.output := by simp [joinWriteList]
@[simp] theorem joinWriteList_timelines (p : Part) (i : Item) : (p.joinWriteList i).timelines = p.timelines := by simp [joinWriteList]
@[simp] theorem joinWriteList_table (p : Part) (i : Item) : (p.joinWriteList i).table = p.table := by simp [joinWriteList]
@[simp] theorem joinWriteList_domains (p : Part) (i : Item) : (p.joinWriteList i).domains = p.domains := by simp [joinWriteList]
@[simp] theorem joinWriteList_inputs (p : Part) (i : Item) : (p.joinWriteList i).inputs = p.inputs := by simp [joinWriteList]
@[simp] theorem joinWriteList_command (p : Part) (i : Item) : (p.joinWriteList i).command = p.command := by simp [joinWriteList]
@[simp] theorem joinWriteList_freeIndex (p : Part) (i : Item) : (p.joinWriteList i).freeIndex = p.freeIndex := by simp [joinWriteList]

/-! ### returnCredit -/

@[simp] theorem returnCredit_resetAsserted (p : Part) (n : Fin 4) : (p.returnCredit n).resetAsserted = p.resetAsserted := rfl
@[simp] theorem returnCredit_engine (p : Part) (n : Fin 4) : (p.returnCredit n).engine = p.engine := rfl
@[simp] theorem returnCredit_clock (p : Part) (n : Fin 4) : (p.returnCredit n).clock = p.clock := rfl
@[simp] theorem returnCredit_output (p : Part) (n : Fin 4) : (p.returnCredit n).output = p.output := rfl
@[simp] theorem returnCredit_timelines (p : Part) (n : Fin 4) : (p.returnCredit n).timelines = p.timelines := rfl
@[simp] theorem returnCredit_table (p : Part) (n : Fin 4) : (p.returnCredit n).table = p.table := rfl
@[simp] theorem returnCredit_domains (p : Part) (n : Fin 4) : (p.returnCredit n).domains = p.domains := rfl
@[simp] theorem returnCredit_inputs (p : Part) (n : Fin 4) : (p.returnCredit n).inputs = p.inputs := rfl
@[simp] theorem returnCredit_command (p : Part) (n : Fin 4) : (p.returnCredit n).command = p.command := rfl
@[simp] theorem returnCredit_monitor (p : Part) (n : Fin 4) : (p.returnCredit n).monitor = p.monitor := rfl
@[simp] theorem returnCredit_freeIndex (p : Part) (n : Fin 4) : (p.returnCredit n).freeIndex = p.freeIndex := rfl

/-! ### handCompletion -/

@[simp] theorem handCompletion_resetAsserted (p : Part) (n : Fin 4) (c : Completion) : (p.handCompletion n c).resetAsserted = p.resetAsserted := by unfold handCompletion; split <;> simp
@[simp] theorem handCompletion_engine (p : Part) (n : Fin 4) (c : Completion) : (p.handCompletion n c).engine = p.engine := by unfold handCompletion; split <;> simp
@[simp] theorem handCompletion_clock (p : Part) (n : Fin 4) (c : Completion) : (p.handCompletion n c).clock = p.clock := by unfold handCompletion; split <;> simp
@[simp] theorem handCompletion_output (p : Part) (n : Fin 4) (c : Completion) : (p.handCompletion n c).output = p.output := by unfold handCompletion; split <;> simp
@[simp] theorem handCompletion_timelines (p : Part) (n : Fin 4) (c : Completion) : (p.handCompletion n c).timelines = p.timelines := by unfold handCompletion; split <;> simp
@[simp] theorem handCompletion_table (p : Part) (n : Fin 4) (c : Completion) : (p.handCompletion n c).table = p.table := by unfold handCompletion; split <;> simp
@[simp] theorem handCompletion_domains (p : Part) (n : Fin 4) (c : Completion) : (p.handCompletion n c).domains = p.domains := by unfold handCompletion; split <;> simp
@[simp] theorem handCompletion_inputs (p : Part) (n : Fin 4) (c : Completion) : (p.handCompletion n c).inputs = p.inputs := by unfold handCompletion; split <;> simp
@[simp] theorem handCompletion_command (p : Part) (n : Fin 4) (c : Completion) : (p.handCompletion n c).command = p.command := by unfold handCompletion; split <;> simp
@[simp] theorem handCompletion_freeIndex (p : Part) (n : Fin 4) (c : Completion) : (p.handCompletion n c).freeIndex = p.freeIndex := by unfold handCompletion; split <;> simp

/-! ### handNotice -/

@[simp] theorem handNotice_resetAsserted (p : Part) (n : Notice) : (p.handNotice n).resetAsserted = p.resetAsserted := by
  unfold handNotice; repeat' split
  all_goals simp
@[simp] theorem handNotice_engine (p : Part) (n : Notice) : (p.handNotice n).engine = p.engine := by
  unfold handNotice; repeat' split
  all_goals simp
@[simp] theorem handNotice_clock (p : Part) (n : Notice) : (p.handNotice n).clock = p.clock := by
  unfold handNotice; repeat' split
  all_goals simp
@[simp] theorem handNotice_output (p : Part) (n : Notice) : (p.handNotice n).output = p.output := by
  unfold handNotice; repeat' split
  all_goals simp
@[simp] theorem handNotice_timelines (p : Part) (n : Notice) : (p.handNotice n).timelines = p.timelines := by
  unfold handNotice; repeat' split
  all_goals simp
@[simp] theorem handNotice_table (p : Part) (n : Notice) : (p.handNotice n).table = p.table := by
  unfold handNotice; repeat' split
  all_goals simp
@[simp] theorem handNotice_domains (p : Part) (n : Notice) : (p.handNotice n).domains = p.domains := by
  unfold handNotice; repeat' split
  all_goals simp
@[simp] theorem handNotice_inputs (p : Part) (n : Notice) : (p.handNotice n).inputs = p.inputs := by
  unfold handNotice; repeat' split
  all_goals simp
@[simp] theorem handNotice_command (p : Part) (n : Notice) : (p.handNotice n).command = p.command := by
  unfold handNotice; repeat' split
  all_goals simp
@[simp] theorem handNotice_freeIndex (p : Part) (n : Notice) : (p.handNotice n).freeIndex = p.freeIndex := by
  unfold handNotice; repeat' split
  all_goals simp

/-! ### notify -/

@[simp] theorem notify_resetAsserted (p : Part) (b : NoticeBody) : (p.notify b).resetAsserted = p.resetAsserted := by simp [notify]
@[simp] theorem notify_engine (p : Part) (b : NoticeBody) : (p.notify b).engine = p.engine := by simp [notify]
@[simp] theorem notify_clock (p : Part) (b : NoticeBody) : (p.notify b).clock = p.clock := by simp [notify]
@[simp] theorem notify_output (p : Part) (b : NoticeBody) : (p.notify b).output = p.output := by simp [notify]
@[simp] theorem notify_timelines (p : Part) (b : NoticeBody) : (p.notify b).timelines = p.timelines := by simp [notify]
@[simp] theorem notify_table (p : Part) (b : NoticeBody) : (p.notify b).table = p.table := by simp [notify]
@[simp] theorem notify_domains (p : Part) (b : NoticeBody) : (p.notify b).domains = p.domains := by simp [notify]
@[simp] theorem notify_inputs (p : Part) (b : NoticeBody) : (p.notify b).inputs = p.inputs := by simp [notify]
@[simp] theorem notify_command (p : Part) (b : NoticeBody) : (p.notify b).command = p.command := by simp [notify]
@[simp] theorem notify_freeIndex (p : Part) (b : NoticeBody) : (p.notify b).freeIndex = p.freeIndex := by simp [notify]

/-! ### complete -/

@[simp] theorem complete_resetAsserted (p : Part) (q : Fin 8) (h : Header) (status : Status) (aux : Nat) : (p.complete q h status aux).resetAsserted = p.resetAsserted := by simp [complete]
@[simp] theorem complete_engine (p : Part) (q : Fin 8) (h : Header) (status : Status) (aux : Nat) : (p.complete q h status aux).engine = p.engine := by simp [complete]
@[simp] theorem complete_clock (p : Part) (q : Fin 8) (h : Header) (status : Status) (aux : Nat) : (p.complete q h status aux).clock = p.clock := by simp [complete]
@[simp] theorem complete_output (p : Part) (q : Fin 8) (h : Header) (status : Status) (aux : Nat) : (p.complete q h status aux).output = p.output := by simp [complete]
@[simp] theorem complete_timelines (p : Part) (q : Fin 8) (h : Header) (status : Status) (aux : Nat) : (p.complete q h status aux).timelines = p.timelines := by simp [complete]
@[simp] theorem complete_table (p : Part) (q : Fin 8) (h : Header) (status : Status) (aux : Nat) : (p.complete q h status aux).table = p.table := by simp [complete]
@[simp] theorem complete_domains (p : Part) (q : Fin 8) (h : Header) (status : Status) (aux : Nat) : (p.complete q h status aux).domains = p.domains := by simp [complete]
@[simp] theorem complete_inputs (p : Part) (q : Fin 8) (h : Header) (status : Status) (aux : Nat) : (p.complete q h status aux).inputs = p.inputs := by simp [complete]
@[simp] theorem complete_command (p : Part) (q : Fin 8) (h : Header) (status : Status) (aux : Nat) : (p.complete q h status aux).command = p.command := by simp [complete]
@[simp] theorem complete_freeIndex (p : Part) (q : Fin 8) (h : Header) (status : Status) (aux : Nat) : (p.complete q h status aux).freeIndex = p.freeIndex := by simp [complete]

/-! ### completeWith -/

@[simp] theorem completeWith_resetAsserted (p : Part) (q : Fin 8) (h : Header) (aux : Nat) (value : Nat) : (p.completeWith q h aux value).resetAsserted = p.resetAsserted := by simp [completeWith]
@[simp] theorem completeWith_engine (p : Part) (q : Fin 8) (h : Header) (aux : Nat) (value : Nat) : (p.completeWith q h aux value).engine = p.engine := by simp [completeWith]
@[simp] theorem completeWith_clock (p : Part) (q : Fin 8) (h : Header) (aux : Nat) (value : Nat) : (p.completeWith q h aux value).clock = p.clock := by simp [completeWith]
@[simp] theorem completeWith_output (p : Part) (q : Fin 8) (h : Header) (aux : Nat) (value : Nat) : (p.completeWith q h aux value).output = p.output := by simp [completeWith]
@[simp] theorem completeWith_timelines (p : Part) (q : Fin 8) (h : Header) (aux : Nat) (value : Nat) : (p.completeWith q h aux value).timelines = p.timelines := by simp [completeWith]
@[simp] theorem completeWith_table (p : Part) (q : Fin 8) (h : Header) (aux : Nat) (value : Nat) : (p.completeWith q h aux value).table = p.table := by simp [completeWith]
@[simp] theorem completeWith_domains (p : Part) (q : Fin 8) (h : Header) (aux : Nat) (value : Nat) : (p.completeWith q h aux value).domains = p.domains := by simp [completeWith]
@[simp] theorem completeWith_inputs (p : Part) (q : Fin 8) (h : Header) (aux : Nat) (value : Nat) : (p.completeWith q h aux value).inputs = p.inputs := by simp [completeWith]
@[simp] theorem completeWith_command (p : Part) (q : Fin 8) (h : Header) (aux : Nat) (value : Nat) : (p.completeWith q h aux value).command = p.command := by simp [completeWith]
@[simp] theorem completeWith_freeIndex (p : Part) (q : Fin 8) (h : Header) (aux : Nat) (value : Nat) : (p.completeWith q h aux value).freeIndex = p.freeIndex := by simp [completeWith]

/-! ### resolve -/

@[simp] theorem resolve_resetAsserted (p : Part) (outcome : StepOutcome) (s : Step) : (p.resolve outcome s).resetAsserted = p.resetAsserted := by
  unfold resolve; split
  · rfl
  · split
    · rfl
    · dsimp only; split <;> simp
@[simp] theorem resolve_engine (p : Part) (outcome : StepOutcome) (s : Step) : (p.resolve outcome s).engine = p.engine := by
  unfold resolve; split
  · rfl
  · split
    · rfl
    · dsimp only; split <;> simp
@[simp] theorem resolve_clock (p : Part) (outcome : StepOutcome) (s : Step) : (p.resolve outcome s).clock = p.clock := by
  unfold resolve; split
  · rfl
  · split
    · rfl
    · dsimp only; split <;> simp
@[simp] theorem resolve_output (p : Part) (outcome : StepOutcome) (s : Step) : (p.resolve outcome s).output = p.output := by
  unfold resolve; split
  · rfl
  · split
    · rfl
    · dsimp only; split <;> simp
@[simp] theorem resolve_timelines (p : Part) (outcome : StepOutcome) (s : Step) : (p.resolve outcome s).timelines = p.timelines := by
  unfold resolve; split
  · rfl
  · split
    · rfl
    · dsimp only; split <;> simp
@[simp] theorem resolve_domains (p : Part) (outcome : StepOutcome) (s : Step) : (p.resolve outcome s).domains = p.domains := by
  unfold resolve; split
  · rfl
  · split
    · rfl
    · dsimp only; split <;> simp
@[simp] theorem resolve_inputs (p : Part) (outcome : StepOutcome) (s : Step) : (p.resolve outcome s).inputs = p.inputs := by
  unfold resolve; split
  · rfl
  · split
    · rfl
    · dsimp only; split <;> simp
@[simp] theorem resolve_command (p : Part) (outcome : StepOutcome) (s : Step) : (p.resolve outcome s).command = p.command := by
  unfold resolve; split
  · rfl
  · split
    · rfl
    · dsimp only; split <;> simp
@[simp] theorem resolve_freeIndex (p : Part) (outcome : StepOutcome) (s : Step) : (p.resolve outcome s).freeIndex = p.freeIndex := by
  unfold resolve; split
  · rfl
  · split
    · rfl
    · dsimp only; split <;> simp

/-! ### resolveAll -/

@[simp] theorem resolveAll_resetAsserted (p : Part) (outcome : StepOutcome) (steps : List Step) : (p.resolveAll outcome steps).resetAsserted = p.resetAsserted := by
  unfold resolveAll; exact foldl_keeps _ _ (fun p s => by simp) steps p
@[simp] theorem resolveAll_engine (p : Part) (outcome : StepOutcome) (steps : List Step) : (p.resolveAll outcome steps).engine = p.engine := by
  unfold resolveAll; exact foldl_keeps _ _ (fun p s => by simp) steps p
@[simp] theorem resolveAll_clock (p : Part) (outcome : StepOutcome) (steps : List Step) : (p.resolveAll outcome steps).clock = p.clock := by
  unfold resolveAll; exact foldl_keeps _ _ (fun p s => by simp) steps p
@[simp] theorem resolveAll_output (p : Part) (outcome : StepOutcome) (steps : List Step) : (p.resolveAll outcome steps).output = p.output := by
  unfold resolveAll; exact foldl_keeps _ _ (fun p s => by simp) steps p
@[simp] theorem resolveAll_timelines (p : Part) (outcome : StepOutcome) (steps : List Step) : (p.resolveAll outcome steps).timelines = p.timelines := by
  unfold resolveAll; exact foldl_keeps _ _ (fun p s => by simp) steps p
@[simp] theorem resolveAll_domains (p : Part) (outcome : StepOutcome) (steps : List Step) : (p.resolveAll outcome steps).domains = p.domains := by
  unfold resolveAll; exact foldl_keeps _ _ (fun p s => by simp) steps p
@[simp] theorem resolveAll_inputs (p : Part) (outcome : StepOutcome) (steps : List Step) : (p.resolveAll outcome steps).inputs = p.inputs := by
  unfold resolveAll; exact foldl_keeps _ _ (fun p s => by simp) steps p
@[simp] theorem resolveAll_command (p : Part) (outcome : StepOutcome) (steps : List Step) : (p.resolveAll outcome steps).command = p.command := by
  unfold resolveAll; exact foldl_keeps _ _ (fun p s => by simp) steps p
@[simp] theorem resolveAll_freeIndex (p : Part) (outcome : StepOutcome) (steps : List Step) : (p.resolveAll outcome steps).freeIndex = p.freeIndex := by
  unfold resolveAll; exact foldl_keeps _ _ (fun p s => by simp) steps p

/-! ### dropWhere -/

@[simp] theorem dropWhere_resetAsserted (p : Part) (which : Step → Bool) (cause : DropCause) (c : Fin 32) : (p.dropWhere which cause c).resetAsserted = p.resetAsserted := by simp [dropWhere]
@[simp] theorem dropWhere_engine (p : Part) (which : Step → Bool) (cause : DropCause) (c : Fin 32) : (p.dropWhere which cause c).engine = p.engine := by simp [dropWhere]
@[simp] theorem dropWhere_clock (p : Part) (which : Step → Bool) (cause : DropCause) (c : Fin 32) : (p.dropWhere which cause c).clock = p.clock := by simp [dropWhere]
@[simp] theorem dropWhere_output (p : Part) (which : Step → Bool) (cause : DropCause) (c : Fin 32) : (p.dropWhere which cause c).output = p.output := by simp [dropWhere]
@[simp] theorem dropWhere_domains (p : Part) (which : Step → Bool) (cause : DropCause) (c : Fin 32) : (p.dropWhere which cause c).domains = p.domains := by simp [dropWhere]
@[simp] theorem dropWhere_inputs (p : Part) (which : Step → Bool) (cause : DropCause) (c : Fin 32) : (p.dropWhere which cause c).inputs = p.inputs := by simp [dropWhere]
@[simp] theorem dropWhere_command (p : Part) (which : Step → Bool) (cause : DropCause) (c : Fin 32) : (p.dropWhere which cause c).command = p.command := by simp [dropWhere]
@[simp] theorem dropWhere_freeIndex (p : Part) (which : Step → Bool) (cause : DropCause) (c : Fin 32) : (p.dropWhere which cause c).freeIndex = p.freeIndex := by simp [dropWhere]

/-! ### dropOn -/

@[simp] theorem dropOn_resetAsserted (p : Part) (channels : List (Fin 32)) (which : Step → Bool) (cause : DropCause) : (p.dropOn channels which cause).resetAsserted = p.resetAsserted := by
  unfold dropOn; exact foldl_keeps _ _ (fun p c => by simp) channels p
@[simp] theorem dropOn_engine (p : Part) (channels : List (Fin 32)) (which : Step → Bool) (cause : DropCause) : (p.dropOn channels which cause).engine = p.engine := by
  unfold dropOn; exact foldl_keeps _ _ (fun p c => by simp) channels p
@[simp] theorem dropOn_clock (p : Part) (channels : List (Fin 32)) (which : Step → Bool) (cause : DropCause) : (p.dropOn channels which cause).clock = p.clock := by
  unfold dropOn; exact foldl_keeps _ _ (fun p c => by simp) channels p
@[simp] theorem dropOn_output (p : Part) (channels : List (Fin 32)) (which : Step → Bool) (cause : DropCause) : (p.dropOn channels which cause).output = p.output := by
  unfold dropOn; exact foldl_keeps _ _ (fun p c => by simp) channels p
@[simp] theorem dropOn_domains (p : Part) (channels : List (Fin 32)) (which : Step → Bool) (cause : DropCause) : (p.dropOn channels which cause).domains = p.domains := by
  unfold dropOn; exact foldl_keeps _ _ (fun p c => by simp) channels p
@[simp] theorem dropOn_inputs (p : Part) (channels : List (Fin 32)) (which : Step → Bool) (cause : DropCause) : (p.dropOn channels which cause).inputs = p.inputs := by
  unfold dropOn; exact foldl_keeps _ _ (fun p c => by simp) channels p
@[simp] theorem dropOn_command (p : Part) (channels : List (Fin 32)) (which : Step → Bool) (cause : DropCause) : (p.dropOn channels which cause).command = p.command := by
  unfold dropOn; exact foldl_keeps _ _ (fun p c => by simp) channels p
@[simp] theorem dropOn_freeIndex (p : Part) (channels : List (Fin 32)) (which : Step → Bool) (cause : DropCause) : (p.dropOn channels which cause).freeIndex = p.freeIndex := by
  unfold dropOn; exact foldl_keeps _ _ (fun p c => by simp) channels p

/-! ### forceChannel -/

@[simp] theorem forceChannel_resetAsserted (p : Part) (reason : ForceReason) (c : Fin 32) : (p.forceChannel reason c).resetAsserted = p.resetAsserted := rfl
@[simp] theorem forceChannel_engine (p : Part) (reason : ForceReason) (c : Fin 32) : (p.forceChannel reason c).engine = p.engine := rfl
@[simp] theorem forceChannel_clock (p : Part) (reason : ForceReason) (c : Fin 32) : (p.forceChannel reason c).clock = p.clock := rfl
@[simp] theorem forceChannel_timelines (p : Part) (reason : ForceReason) (c : Fin 32) : (p.forceChannel reason c).timelines = p.timelines := rfl
@[simp] theorem forceChannel_table (p : Part) (reason : ForceReason) (c : Fin 32) : (p.forceChannel reason c).table = p.table := rfl
@[simp] theorem forceChannel_domains (p : Part) (reason : ForceReason) (c : Fin 32) : (p.forceChannel reason c).domains = p.domains := rfl
@[simp] theorem forceChannel_inputs (p : Part) (reason : ForceReason) (c : Fin 32) : (p.forceChannel reason c).inputs = p.inputs := rfl
@[simp] theorem forceChannel_command (p : Part) (reason : ForceReason) (c : Fin 32) : (p.forceChannel reason c).command = p.command := rfl
@[simp] theorem forceChannel_posting (p : Part) (reason : ForceReason) (c : Fin 32) : (p.forceChannel reason c).posting = p.posting := rfl
@[simp] theorem forceChannel_monitor (p : Part) (reason : ForceReason) (c : Fin 32) : (p.forceChannel reason c).monitor = p.monitor := rfl
@[simp] theorem forceChannel_freeIndex (p : Part) (reason : ForceReason) (c : Fin 32) : (p.forceChannel reason c).freeIndex = p.freeIndex := rfl

/-! ### unforceChannel -/

@[simp] theorem unforceChannel_resetAsserted (p : Part) (reason : ForceReason) (c : Fin 32) : (p.unforceChannel reason c).resetAsserted = p.resetAsserted := rfl
@[simp] theorem unforceChannel_engine (p : Part) (reason : ForceReason) (c : Fin 32) : (p.unforceChannel reason c).engine = p.engine := rfl
@[simp] theorem unforceChannel_clock (p : Part) (reason : ForceReason) (c : Fin 32) : (p.unforceChannel reason c).clock = p.clock := rfl
@[simp] theorem unforceChannel_timelines (p : Part) (reason : ForceReason) (c : Fin 32) : (p.unforceChannel reason c).timelines = p.timelines := rfl
@[simp] theorem unforceChannel_table (p : Part) (reason : ForceReason) (c : Fin 32) : (p.unforceChannel reason c).table = p.table := rfl
@[simp] theorem unforceChannel_domains (p : Part) (reason : ForceReason) (c : Fin 32) : (p.unforceChannel reason c).domains = p.domains := rfl
@[simp] theorem unforceChannel_inputs (p : Part) (reason : ForceReason) (c : Fin 32) : (p.unforceChannel reason c).inputs = p.inputs := rfl
@[simp] theorem unforceChannel_command (p : Part) (reason : ForceReason) (c : Fin 32) : (p.unforceChannel reason c).command = p.command := rfl
@[simp] theorem unforceChannel_posting (p : Part) (reason : ForceReason) (c : Fin 32) : (p.unforceChannel reason c).posting = p.posting := rfl
@[simp] theorem unforceChannel_monitor (p : Part) (reason : ForceReason) (c : Fin 32) : (p.unforceChannel reason c).monitor = p.monitor := rfl
@[simp] theorem unforceChannel_freeIndex (p : Part) (reason : ForceReason) (c : Fin 32) : (p.unforceChannel reason c).freeIndex = p.freeIndex := rfl

/-! ### setPairView -/

@[simp] theorem setPairView_resetAsserted (p : Part) (k : Fin 16) (v : PairView) : (p.setPairView k v).resetAsserted = p.resetAsserted := rfl
@[simp] theorem setPairView_engine (p : Part) (k : Fin 16) (v : PairView) : (p.setPairView k v).engine = p.engine := rfl
@[simp] theorem setPairView_clock (p : Part) (k : Fin 16) (v : PairView) : (p.setPairView k v).clock = p.clock := rfl
@[simp] theorem setPairView_timelines (p : Part) (k : Fin 16) (v : PairView) : (p.setPairView k v).timelines = p.timelines := rfl
@[simp] theorem setPairView_table (p : Part) (k : Fin 16) (v : PairView) : (p.setPairView k v).table = p.table := rfl
@[simp] theorem setPairView_domains (p : Part) (k : Fin 16) (v : PairView) : (p.setPairView k v).domains = p.domains := rfl
@[simp] theorem setPairView_inputs (p : Part) (k : Fin 16) (v : PairView) : (p.setPairView k v).inputs = p.inputs := rfl
@[simp] theorem setPairView_command (p : Part) (k : Fin 16) (v : PairView) : (p.setPairView k v).command = p.command := rfl
@[simp] theorem setPairView_posting (p : Part) (k : Fin 16) (v : PairView) : (p.setPairView k v).posting = p.posting := rfl
@[simp] theorem setPairView_monitor (p : Part) (k : Fin 16) (v : PairView) : (p.setPairView k v).monitor = p.monitor := rfl
@[simp] theorem setPairView_freeIndex (p : Part) (k : Fin 16) (v : PairView) : (p.setPairView k v).freeIndex = p.freeIndex := rfl

/-! ### noteReports -/

@[simp] theorem noteReports_resetAsserted (p : Part) (k : Fin 16) (reports : List SafeReport) : (p.noteReports k reports).resetAsserted = p.resetAsserted := by
  unfold noteReports; exact foldl_keeps _ _ (fun p r => by simp) reports p
@[simp] theorem noteReports_engine (p : Part) (k : Fin 16) (reports : List SafeReport) : (p.noteReports k reports).engine = p.engine := by
  unfold noteReports; exact foldl_keeps _ _ (fun p r => by simp) reports p
@[simp] theorem noteReports_clock (p : Part) (k : Fin 16) (reports : List SafeReport) : (p.noteReports k reports).clock = p.clock := by
  unfold noteReports; exact foldl_keeps _ _ (fun p r => by simp) reports p
@[simp] theorem noteReports_output (p : Part) (k : Fin 16) (reports : List SafeReport) : (p.noteReports k reports).output = p.output := by
  unfold noteReports; exact foldl_keeps _ _ (fun p r => by simp) reports p
@[simp] theorem noteReports_timelines (p : Part) (k : Fin 16) (reports : List SafeReport) : (p.noteReports k reports).timelines = p.timelines := by
  unfold noteReports; exact foldl_keeps _ _ (fun p r => by simp) reports p
@[simp] theorem noteReports_table (p : Part) (k : Fin 16) (reports : List SafeReport) : (p.noteReports k reports).table = p.table := by
  unfold noteReports; exact foldl_keeps _ _ (fun p r => by simp) reports p
@[simp] theorem noteReports_inputs (p : Part) (k : Fin 16) (reports : List SafeReport) : (p.noteReports k reports).inputs = p.inputs := by
  unfold noteReports; exact foldl_keeps _ _ (fun p r => by simp) reports p
@[simp] theorem noteReports_command (p : Part) (k : Fin 16) (reports : List SafeReport) : (p.noteReports k reports).command = p.command := by
  unfold noteReports; exact foldl_keeps _ _ (fun p r => by simp) reports p
@[simp] theorem noteReports_posting (p : Part) (k : Fin 16) (reports : List SafeReport) : (p.noteReports k reports).posting = p.posting := by
  unfold noteReports; exact foldl_keeps _ _ (fun p r => by simp) reports p
@[simp] theorem noteReports_monitor (p : Part) (k : Fin 16) (reports : List SafeReport) : (p.noteReports k reports).monitor = p.monitor := by
  unfold noteReports; exact foldl_keeps _ _ (fun p r => by simp) reports p
@[simp] theorem noteReports_freeIndex (p : Part) (k : Fin 16) (reports : List SafeReport) : (p.noteReports k reports).freeIndex = p.freeIndex := by
  unfold noteReports; exact foldl_keeps _ _ (fun p r => by simp) reports p

/-! ### checkSafe -/

@[simp] theorem checkSafe_resetAsserted (p : Part) (d : Fin 8) : (p.checkSafe d).resetAsserted = p.resetAsserted := by unfold checkSafe; dsimp only; split <;> simp
@[simp] theorem checkSafe_engine (p : Part) (d : Fin 8) : (p.checkSafe d).engine = p.engine := by unfold checkSafe; dsimp only; split <;> simp
@[simp] theorem checkSafe_clock (p : Part) (d : Fin 8) : (p.checkSafe d).clock = p.clock := by unfold checkSafe; dsimp only; split <;> simp
@[simp] theorem checkSafe_output (p : Part) (d : Fin 8) : (p.checkSafe d).output = p.output := by unfold checkSafe; dsimp only; split <;> simp
@[simp] theorem checkSafe_timelines (p : Part) (d : Fin 8) : (p.checkSafe d).timelines = p.timelines := by unfold checkSafe; dsimp only; split <;> simp
@[simp] theorem checkSafe_table (p : Part) (d : Fin 8) : (p.checkSafe d).table = p.table := by unfold checkSafe; dsimp only; split <;> simp
@[simp] theorem checkSafe_inputs (p : Part) (d : Fin 8) : (p.checkSafe d).inputs = p.inputs := by unfold checkSafe; dsimp only; split <;> simp
@[simp] theorem checkSafe_command (p : Part) (d : Fin 8) : (p.checkSafe d).command = p.command := by unfold checkSafe; dsimp only; split <;> simp
@[simp] theorem checkSafe_freeIndex (p : Part) (d : Fin 8) : (p.checkSafe d).freeIndex = p.freeIndex := by unfold checkSafe; dsimp only; split <;> simp

/-! ### checkReported -/

@[simp] theorem checkReported_resetAsserted (p : Part) (reports : List SafeReport) : (p.checkReported reports).resetAsserted = p.resetAsserted := by
  unfold checkReported; exact foldl_keeps _ _ (fun p r => by simp) reports p
@[simp] theorem checkReported_engine (p : Part) (reports : List SafeReport) : (p.checkReported reports).engine = p.engine := by
  unfold checkReported; exact foldl_keeps _ _ (fun p r => by simp) reports p
@[simp] theorem checkReported_clock (p : Part) (reports : List SafeReport) : (p.checkReported reports).clock = p.clock := by
  unfold checkReported; exact foldl_keeps _ _ (fun p r => by simp) reports p
@[simp] theorem checkReported_output (p : Part) (reports : List SafeReport) : (p.checkReported reports).output = p.output := by
  unfold checkReported; exact foldl_keeps _ _ (fun p r => by simp) reports p
@[simp] theorem checkReported_timelines (p : Part) (reports : List SafeReport) : (p.checkReported reports).timelines = p.timelines := by
  unfold checkReported; exact foldl_keeps _ _ (fun p r => by simp) reports p
@[simp] theorem checkReported_table (p : Part) (reports : List SafeReport) : (p.checkReported reports).table = p.table := by
  unfold checkReported; exact foldl_keeps _ _ (fun p r => by simp) reports p
@[simp] theorem checkReported_inputs (p : Part) (reports : List SafeReport) : (p.checkReported reports).inputs = p.inputs := by
  unfold checkReported; exact foldl_keeps _ _ (fun p r => by simp) reports p
@[simp] theorem checkReported_command (p : Part) (reports : List SafeReport) : (p.checkReported reports).command = p.command := by
  unfold checkReported; exact foldl_keeps _ _ (fun p r => by simp) reports p
@[simp] theorem checkReported_freeIndex (p : Part) (reports : List SafeReport) : (p.checkReported reports).freeIndex = p.freeIndex := by
  unfold checkReported; exact foldl_keeps _ _ (fun p r => by simp) reports p

/-! ### batch_fst -/

@[simp] theorem batch_fst_resetAsserted (p : Part) (k : Fin 16) (lower upper : Option Request) : (p.batch k lower upper).1.resetAsserted = p.resetAsserted := by simp [batch]
@[simp] theorem batch_fst_engine (p : Part) (k : Fin 16) (lower upper : Option Request) : (p.batch k lower upper).1.engine = p.engine := by simp [batch]
@[simp] theorem batch_fst_clock (p : Part) (k : Fin 16) (lower upper : Option Request) : (p.batch k lower upper).1.clock = p.clock := by simp [batch]
@[simp] theorem batch_fst_timelines (p : Part) (k : Fin 16) (lower upper : Option Request) : (p.batch k lower upper).1.timelines = p.timelines := by simp [batch]
@[simp] theorem batch_fst_table (p : Part) (k : Fin 16) (lower upper : Option Request) : (p.batch k lower upper).1.table = p.table := by simp [batch]
@[simp] theorem batch_fst_inputs (p : Part) (k : Fin 16) (lower upper : Option Request) : (p.batch k lower upper).1.inputs = p.inputs := by simp [batch]
@[simp] theorem batch_fst_command (p : Part) (k : Fin 16) (lower upper : Option Request) : (p.batch k lower upper).1.command = p.command := by simp [batch]
@[simp] theorem batch_fst_posting (p : Part) (k : Fin 16) (lower upper : Option Request) : (p.batch k lower upper).1.posting = p.posting := by simp [batch]
@[simp] theorem batch_fst_monitor (p : Part) (k : Fin 16) (lower upper : Option Request) : (p.batch k lower upper).1.monitor = p.monitor := by simp [batch]
@[simp] theorem batch_fst_freeIndex (p : Part) (k : Fin 16) (lower upper : Option Request) : (p.batch k lower upper).1.freeIndex = p.freeIndex := by simp [batch]

/-! ### requestBatch -/

@[simp] theorem requestBatch_resetAsserted (p : Part) (k : Fin 16) (lower upper : Option Request) : (p.requestBatch k lower upper).resetAsserted = p.resetAsserted := by simp [requestBatch]
@[simp] theorem requestBatch_engine (p : Part) (k : Fin 16) (lower upper : Option Request) : (p.requestBatch k lower upper).engine = p.engine := by simp [requestBatch]
@[simp] theorem requestBatch_clock (p : Part) (k : Fin 16) (lower upper : Option Request) : (p.requestBatch k lower upper).clock = p.clock := by simp [requestBatch]
@[simp] theorem requestBatch_timelines (p : Part) (k : Fin 16) (lower upper : Option Request) : (p.requestBatch k lower upper).timelines = p.timelines := by simp [requestBatch]
@[simp] theorem requestBatch_table (p : Part) (k : Fin 16) (lower upper : Option Request) : (p.requestBatch k lower upper).table = p.table := by simp [requestBatch]
@[simp] theorem requestBatch_inputs (p : Part) (k : Fin 16) (lower upper : Option Request) : (p.requestBatch k lower upper).inputs = p.inputs := by simp [requestBatch]
@[simp] theorem requestBatch_command (p : Part) (k : Fin 16) (lower upper : Option Request) : (p.requestBatch k lower upper).command = p.command := by simp [requestBatch]
@[simp] theorem requestBatch_freeIndex (p : Part) (k : Fin 16) (lower upper : Option Request) : (p.requestBatch k lower upper).freeIndex = p.freeIndex := by simp [requestBatch]

/-! ### requestOne -/

@[simp] theorem requestOne_resetAsserted (p : Part) (c : Fin 32) (r : Request) : (p.requestOne c r).resetAsserted = p.resetAsserted := by unfold requestOne; split <;> simp
@[simp] theorem requestOne_engine (p : Part) (c : Fin 32) (r : Request) : (p.requestOne c r).engine = p.engine := by unfold requestOne; split <;> simp
@[simp] theorem requestOne_clock (p : Part) (c : Fin 32) (r : Request) : (p.requestOne c r).clock = p.clock := by unfold requestOne; split <;> simp
@[simp] theorem requestOne_timelines (p : Part) (c : Fin 32) (r : Request) : (p.requestOne c r).timelines = p.timelines := by unfold requestOne; split <;> simp
@[simp] theorem requestOne_table (p : Part) (c : Fin 32) (r : Request) : (p.requestOne c r).table = p.table := by unfold requestOne; split <;> simp
@[simp] theorem requestOne_inputs (p : Part) (c : Fin 32) (r : Request) : (p.requestOne c r).inputs = p.inputs := by unfold requestOne; split <;> simp
@[simp] theorem requestOne_command (p : Part) (c : Fin 32) (r : Request) : (p.requestOne c r).command = p.command := by unfold requestOne; split <;> simp
@[simp] theorem requestOne_freeIndex (p : Part) (c : Fin 32) (r : Request) : (p.requestOne c r).freeIndex = p.freeIndex := by unfold requestOne; split <;> simp

/-! ### requestSafe -/

@[simp] theorem requestSafe_resetAsserted (p : Part) (channels : List (Fin 32)) (kind : WaitKind) : (p.requestSafe channels kind).resetAsserted = p.resetAsserted := by
  unfold requestSafe; exact foldl_keeps _ _ (fun p k => by simp) _ p
@[simp] theorem requestSafe_engine (p : Part) (channels : List (Fin 32)) (kind : WaitKind) : (p.requestSafe channels kind).engine = p.engine := by
  unfold requestSafe; exact foldl_keeps _ _ (fun p k => by simp) _ p
@[simp] theorem requestSafe_clock (p : Part) (channels : List (Fin 32)) (kind : WaitKind) : (p.requestSafe channels kind).clock = p.clock := by
  unfold requestSafe; exact foldl_keeps _ _ (fun p k => by simp) _ p
@[simp] theorem requestSafe_timelines (p : Part) (channels : List (Fin 32)) (kind : WaitKind) : (p.requestSafe channels kind).timelines = p.timelines := by
  unfold requestSafe; exact foldl_keeps _ _ (fun p k => by simp) _ p
@[simp] theorem requestSafe_table (p : Part) (channels : List (Fin 32)) (kind : WaitKind) : (p.requestSafe channels kind).table = p.table := by
  unfold requestSafe; exact foldl_keeps _ _ (fun p k => by simp) _ p
@[simp] theorem requestSafe_inputs (p : Part) (channels : List (Fin 32)) (kind : WaitKind) : (p.requestSafe channels kind).inputs = p.inputs := by
  unfold requestSafe; exact foldl_keeps _ _ (fun p k => by simp) _ p
@[simp] theorem requestSafe_command (p : Part) (channels : List (Fin 32)) (kind : WaitKind) : (p.requestSafe channels kind).command = p.command := by
  unfold requestSafe; exact foldl_keeps _ _ (fun p k => by simp) _ p
@[simp] theorem requestSafe_freeIndex (p : Part) (channels : List (Fin 32)) (kind : WaitKind) : (p.requestSafe channels kind).freeIndex = p.freeIndex := by
  unfold requestSafe; exact foldl_keeps _ _ (fun p k => by simp) _ p

end Part

end Sys2Proof.Machine
end

