-- ==== Sys2Proof/Laws/TripFrames.lean ====
section
/-!
SUPPORT. The frames of the trip and of what Engine Control does at the end of an event.
-/

namespace Sys2Proof.Machine

namespace Part

/-! ### forceMembers -/

@[simp] theorem forceMembers_resetAsserted (p : Part) (members : List (Fin 32)) : (p.forceMembers members).resetAsserted = p.resetAsserted := by
  unfold forceMembers; exact foldl_keeps _ _ (fun p c => by simp) members p
@[simp] theorem forceMembers_engine (p : Part) (members : List (Fin 32)) : (p.forceMembers members).engine = p.engine := by
  unfold forceMembers; exact foldl_keeps _ _ (fun p c => by simp) members p
@[simp] theorem forceMembers_clock (p : Part) (members : List (Fin 32)) : (p.forceMembers members).clock = p.clock := by
  unfold forceMembers; exact foldl_keeps _ _ (fun p c => by simp) members p
@[simp] theorem forceMembers_timelines (p : Part) (members : List (Fin 32)) : (p.forceMembers members).timelines = p.timelines := by
  unfold forceMembers; exact foldl_keeps _ _ (fun p c => by simp) members p
@[simp] theorem forceMembers_table (p : Part) (members : List (Fin 32)) : (p.forceMembers members).table = p.table := by
  unfold forceMembers; exact foldl_keeps _ _ (fun p c => by simp) members p
@[simp] theorem forceMembers_domains (p : Part) (members : List (Fin 32)) : (p.forceMembers members).domains = p.domains := by
  unfold forceMembers; exact foldl_keeps _ _ (fun p c => by simp) members p
@[simp] theorem forceMembers_inputs (p : Part) (members : List (Fin 32)) : (p.forceMembers members).inputs = p.inputs := by
  unfold forceMembers; exact foldl_keeps _ _ (fun p c => by simp) members p
@[simp] theorem forceMembers_command (p : Part) (members : List (Fin 32)) : (p.forceMembers members).command = p.command := by
  unfold forceMembers; exact foldl_keeps _ _ (fun p c => by simp) members p
@[simp] theorem forceMembers_posting (p : Part) (members : List (Fin 32)) : (p.forceMembers members).posting = p.posting := by
  unfold forceMembers; exact foldl_keeps _ _ (fun p c => by simp) members p
@[simp] theorem forceMembers_monitor (p : Part) (members : List (Fin 32)) : (p.forceMembers members).monitor = p.monitor := by
  unfold forceMembers; exact foldl_keeps _ _ (fun p c => by simp) members p
@[simp] theorem forceMembers_freeIndex (p : Part) (members : List (Fin 32)) : (p.forceMembers members).freeIndex = p.freeIndex := by
  unfold forceMembers; exact foldl_keeps _ _ (fun p c => by simp) members p

/-! ### immediateBatch -/

@[simp] theorem immediateBatch_resetAsserted (p : Part) (d : Fin 8) (k : Fin 16) (channels : List (Fin 32)) : (p.immediateBatch d k channels).resetAsserted = p.resetAsserted := by
  unfold immediateBatch; dsimp only; repeat' split
  all_goals simp
@[simp] theorem immediateBatch_engine (p : Part) (d : Fin 8) (k : Fin 16) (channels : List (Fin 32)) : (p.immediateBatch d k channels).engine = p.engine := by
  unfold immediateBatch; dsimp only; repeat' split
  all_goals simp
@[simp] theorem immediateBatch_clock (p : Part) (d : Fin 8) (k : Fin 16) (channels : List (Fin 32)) : (p.immediateBatch d k channels).clock = p.clock := by
  unfold immediateBatch; dsimp only; repeat' split
  all_goals simp
@[simp] theorem immediateBatch_timelines (p : Part) (d : Fin 8) (k : Fin 16) (channels : List (Fin 32)) : (p.immediateBatch d k channels).timelines = p.timelines := by
  unfold immediateBatch; dsimp only; repeat' split
  all_goals simp
@[simp] theorem immediateBatch_table (p : Part) (d : Fin 8) (k : Fin 16) (channels : List (Fin 32)) : (p.immediateBatch d k channels).table = p.table := by
  unfold immediateBatch; dsimp only; repeat' split
  all_goals simp
@[simp] theorem immediateBatch_inputs (p : Part) (d : Fin 8) (k : Fin 16) (channels : List (Fin 32)) : (p.immediateBatch d k channels).inputs = p.inputs := by
  unfold immediateBatch; dsimp only; repeat' split
  all_goals simp
@[simp] theorem immediateBatch_command (p : Part) (d : Fin 8) (k : Fin 16) (channels : List (Fin 32)) : (p.immediateBatch d k channels).command = p.command := by
  unfold immediateBatch; dsimp only; repeat' split
  all_goals simp
@[simp] theorem immediateBatch_posting (p : Part) (d : Fin 8) (k : Fin 16) (channels : List (Fin 32)) : (p.immediateBatch d k channels).posting = p.posting := by
  unfold immediateBatch; dsimp only; repeat' split
  all_goals simp
@[simp] theorem immediateBatch_monitor (p : Part) (d : Fin 8) (k : Fin 16) (channels : List (Fin 32)) : (p.immediateBatch d k channels).monitor = p.monitor := by
  unfold immediateBatch; dsimp only; repeat' split
  all_goals simp
@[simp] theorem immediateBatch_freeIndex (p : Part) (d : Fin 8) (k : Fin 16) (channels : List (Fin 32)) : (p.immediateBatch d k channels).freeIndex = p.freeIndex := by
  unfold immediateBatch; dsimp only; repeat' split
  all_goals simp

/-! ### driveImmediate -/

@[simp] theorem driveImmediate_resetAsserted (p : Part) (d : Fin 8) (channels : List (Fin 32)) : (p.driveImmediate d channels).resetAsserted = p.resetAsserted := by
  unfold driveImmediate; exact foldl_keeps _ _ (fun p k => by simp) _ p
@[simp] theorem driveImmediate_engine (p : Part) (d : Fin 8) (channels : List (Fin 32)) : (p.driveImmediate d channels).engine = p.engine := by
  unfold driveImmediate; exact foldl_keeps _ _ (fun p k => by simp) _ p
@[simp] theorem driveImmediate_clock (p : Part) (d : Fin 8) (channels : List (Fin 32)) : (p.driveImmediate d channels).clock = p.clock := by
  unfold driveImmediate; exact foldl_keeps _ _ (fun p k => by simp) _ p
@[simp] theorem driveImmediate_timelines (p : Part) (d : Fin 8) (channels : List (Fin 32)) : (p.driveImmediate d channels).timelines = p.timelines := by
  unfold driveImmediate; exact foldl_keeps _ _ (fun p k => by simp) _ p
@[simp] theorem driveImmediate_table (p : Part) (d : Fin 8) (channels : List (Fin 32)) : (p.driveImmediate d channels).table = p.table := by
  unfold driveImmediate; exact foldl_keeps _ _ (fun p k => by simp) _ p
@[simp] theorem driveImmediate_inputs (p : Part) (d : Fin 8) (channels : List (Fin 32)) : (p.driveImmediate d channels).inputs = p.inputs := by
  unfold driveImmediate; exact foldl_keeps _ _ (fun p k => by simp) _ p
@[simp] theorem driveImmediate_command (p : Part) (d : Fin 8) (channels : List (Fin 32)) : (p.driveImmediate d channels).command = p.command := by
  unfold driveImmediate; exact foldl_keeps _ _ (fun p k => by simp) _ p
@[simp] theorem driveImmediate_posting (p : Part) (d : Fin 8) (channels : List (Fin 32)) : (p.driveImmediate d channels).posting = p.posting := by
  unfold driveImmediate; exact foldl_keeps _ _ (fun p k => by simp) _ p
@[simp] theorem driveImmediate_monitor (p : Part) (d : Fin 8) (channels : List (Fin 32)) : (p.driveImmediate d channels).monitor = p.monitor := by
  unfold driveImmediate; exact foldl_keeps _ _ (fun p k => by simp) _ p
@[simp] theorem driveImmediate_freeIndex (p : Part) (d : Fin 8) (channels : List (Fin 32)) : (p.driveImmediate d channels).freeIndex = p.freeIndex := by
  unfold driveImmediate; exact foldl_keeps _ _ (fun p k => by simp) _ p

/-! ### makeEntry -/

@[simp] theorem makeEntry_resetAsserted (p : Part) (d : Fin 8) (number : Nat) (c : Fin 32) : (p.makeEntry d number c).resetAsserted = p.resetAsserted := by
  unfold makeEntry; dsimp only; split <;> simp
@[simp] theorem makeEntry_engine (p : Part) (d : Fin 8) (number : Nat) (c : Fin 32) : (p.makeEntry d number c).engine = p.engine := by
  unfold makeEntry; dsimp only; split <;> simp
@[simp] theorem makeEntry_clock (p : Part) (d : Fin 8) (number : Nat) (c : Fin 32) : (p.makeEntry d number c).clock = p.clock := by
  unfold makeEntry; dsimp only; split <;> simp
@[simp] theorem makeEntry_timelines (p : Part) (d : Fin 8) (number : Nat) (c : Fin 32) : (p.makeEntry d number c).timelines = p.timelines := by
  unfold makeEntry; dsimp only; split <;> simp
@[simp] theorem makeEntry_table (p : Part) (d : Fin 8) (number : Nat) (c : Fin 32) : (p.makeEntry d number c).table = p.table := by
  unfold makeEntry; dsimp only; split <;> simp
@[simp] theorem makeEntry_inputs (p : Part) (d : Fin 8) (number : Nat) (c : Fin 32) : (p.makeEntry d number c).inputs = p.inputs := by
  unfold makeEntry; dsimp only; split <;> simp
@[simp] theorem makeEntry_command (p : Part) (d : Fin 8) (number : Nat) (c : Fin 32) : (p.makeEntry d number c).command = p.command := by
  unfold makeEntry; dsimp only; split <;> simp
@[simp] theorem makeEntry_posting (p : Part) (d : Fin 8) (number : Nat) (c : Fin 32) : (p.makeEntry d number c).posting = p.posting := by
  unfold makeEntry; dsimp only; split <;> simp
@[simp] theorem makeEntry_monitor (p : Part) (d : Fin 8) (number : Nat) (c : Fin 32) : (p.makeEntry d number c).monitor = p.monitor := by
  unfold makeEntry; dsimp only; split <;> simp
@[simp] theorem makeEntry_freeIndex (p : Part) (d : Fin 8) (number : Nat) (c : Fin 32) : (p.makeEntry d number c).freeIndex = p.freeIndex := by
  unfold makeEntry; dsimp only; split <;> simp

/-! ### makeZeroEntries -/

@[simp] theorem makeZeroEntries_resetAsserted (p : Part) (d : Fin 8) (sequence : List SequenceEntry) : (p.makeZeroEntries d sequence).resetAsserted = p.resetAsserted := by
  unfold makeZeroEntries; exact foldl_keeps _ _ (fun p x => by split <;> simp) _ p
@[simp] theorem makeZeroEntries_engine (p : Part) (d : Fin 8) (sequence : List SequenceEntry) : (p.makeZeroEntries d sequence).engine = p.engine := by
  unfold makeZeroEntries; exact foldl_keeps _ _ (fun p x => by split <;> simp) _ p
@[simp] theorem makeZeroEntries_clock (p : Part) (d : Fin 8) (sequence : List SequenceEntry) : (p.makeZeroEntries d sequence).clock = p.clock := by
  unfold makeZeroEntries; exact foldl_keeps _ _ (fun p x => by split <;> simp) _ p
@[simp] theorem makeZeroEntries_timelines (p : Part) (d : Fin 8) (sequence : List SequenceEntry) : (p.makeZeroEntries d sequence).timelines = p.timelines := by
  unfold makeZeroEntries; exact foldl_keeps _ _ (fun p x => by split <;> simp) _ p
@[simp] theorem makeZeroEntries_table (p : Part) (d : Fin 8) (sequence : List SequenceEntry) : (p.makeZeroEntries d sequence).table = p.table := by
  unfold makeZeroEntries; exact foldl_keeps _ _ (fun p x => by split <;> simp) _ p
@[simp] theorem makeZeroEntries_inputs (p : Part) (d : Fin 8) (sequence : List SequenceEntry) : (p.makeZeroEntries d sequence).inputs = p.inputs := by
  unfold makeZeroEntries; exact foldl_keeps _ _ (fun p x => by split <;> simp) _ p
@[simp] theorem makeZeroEntries_command (p : Part) (d : Fin 8) (sequence : List SequenceEntry) : (p.makeZeroEntries d sequence).command = p.command := by
  unfold makeZeroEntries; exact foldl_keeps _ _ (fun p x => by split <;> simp) _ p
@[simp] theorem makeZeroEntries_posting (p : Part) (d : Fin 8) (sequence : List SequenceEntry) : (p.makeZeroEntries d sequence).posting = p.posting := by
  unfold makeZeroEntries; exact foldl_keeps _ _ (fun p x => by split <;> simp) _ p
@[simp] theorem makeZeroEntries_monitor (p : Part) (d : Fin 8) (sequence : List SequenceEntry) : (p.makeZeroEntries d sequence).monitor = p.monitor := by
  unfold makeZeroEntries; exact foldl_keeps _ _ (fun p x => by split <;> simp) _ p
@[simp] theorem makeZeroEntries_freeIndex (p : Part) (d : Fin 8) (sequence : List SequenceEntry) : (p.makeZeroEntries d sequence).freeIndex = p.freeIndex := by
  unfold makeZeroEntries; exact foldl_keeps _ _ (fun p x => by split <;> simp) _ p

/-! ### trip -/

@[simp] theorem trip_resetAsserted (p : Part) (d : Fin 8) (cause : Cause) : (p.trip d cause).resetAsserted = p.resetAsserted := by
  unfold trip; dsimp only; split <;> simp
@[simp] theorem trip_engine (p : Part) (d : Fin 8) (cause : Cause) : (p.trip d cause).engine = p.engine := by
  unfold trip; dsimp only; split <;> simp
@[simp] theorem trip_clock (p : Part) (d : Fin 8) (cause : Cause) : (p.trip d cause).clock = p.clock := by
  unfold trip; dsimp only; split <;> simp
@[simp] theorem trip_inputs (p : Part) (d : Fin 8) (cause : Cause) : (p.trip d cause).inputs = p.inputs := by
  unfold trip; dsimp only; split <;> simp
@[simp] theorem trip_command (p : Part) (d : Fin 8) (cause : Cause) : (p.trip d cause).command = p.command := by
  unfold trip; dsimp only; split <;> simp
@[simp] theorem trip_freeIndex (p : Part) (d : Fin 8) (cause : Cause) : (p.trip d cause).freeIndex = p.freeIndex := by
  unfold trip; dsimp only; split <;> simp

/-! ### addCause -/

@[simp] theorem addCause_resetAsserted (p : Part) (d : Fin 8) (cause : Cause) : (p.addCause d cause).resetAsserted = p.resetAsserted := by unfold addCause; dsimp only; split <;> simp
@[simp] theorem addCause_engine (p : Part) (d : Fin 8) (cause : Cause) : (p.addCause d cause).engine = p.engine := by unfold addCause; dsimp only; split <;> simp
@[simp] theorem addCause_clock (p : Part) (d : Fin 8) (cause : Cause) : (p.addCause d cause).clock = p.clock := by unfold addCause; dsimp only; split <;> simp
@[simp] theorem addCause_output (p : Part) (d : Fin 8) (cause : Cause) : (p.addCause d cause).output = p.output := by unfold addCause; dsimp only; split <;> simp
@[simp] theorem addCause_timelines (p : Part) (d : Fin 8) (cause : Cause) : (p.addCause d cause).timelines = p.timelines := by unfold addCause; dsimp only; split <;> simp
@[simp] theorem addCause_table (p : Part) (d : Fin 8) (cause : Cause) : (p.addCause d cause).table = p.table := by unfold addCause; dsimp only; split <;> simp
@[simp] theorem addCause_inputs (p : Part) (d : Fin 8) (cause : Cause) : (p.addCause d cause).inputs = p.inputs := by unfold addCause; dsimp only; split <;> simp
@[simp] theorem addCause_command (p : Part) (d : Fin 8) (cause : Cause) : (p.addCause d cause).command = p.command := by unfold addCause; dsimp only; split <;> simp
@[simp] theorem addCause_freeIndex (p : Part) (d : Fin 8) (cause : Cause) : (p.addCause d cause).freeIndex = p.freeIndex := by unfold addCause; dsimp only; split <;> simp

/-! ### tripArmed -/

@[simp] theorem tripArmed_resetAsserted (p : Part) (d : Fin 8) (cause : Cause) : (p.tripArmed d cause).resetAsserted = p.resetAsserted := by
  unfold tripArmed; dsimp only; split <;> simp
@[simp] theorem tripArmed_engine (p : Part) (d : Fin 8) (cause : Cause) : (p.tripArmed d cause).engine = p.engine := by
  unfold tripArmed; dsimp only; split <;> simp
@[simp] theorem tripArmed_clock (p : Part) (d : Fin 8) (cause : Cause) : (p.tripArmed d cause).clock = p.clock := by
  unfold tripArmed; dsimp only; split <;> simp
@[simp] theorem tripArmed_inputs (p : Part) (d : Fin 8) (cause : Cause) : (p.tripArmed d cause).inputs = p.inputs := by
  unfold tripArmed; dsimp only; split <;> simp
@[simp] theorem tripArmed_command (p : Part) (d : Fin 8) (cause : Cause) : (p.tripArmed d cause).command = p.command := by
  unfold tripArmed; dsimp only; split <;> simp
@[simp] theorem tripArmed_freeIndex (p : Part) (d : Fin 8) (cause : Cause) : (p.tripArmed d cause).freeIndex = p.freeIndex := by
  unfold tripArmed; dsimp only; split <;> simp

/-! ### offer -/

@[simp] theorem offer_resetAsserted (p : Part) (cause : Cause) (d : Fin 8) : (p.offer cause d).resetAsserted = p.resetAsserted := by
  unfold offer; dsimp only; repeat' split
  all_goals simp
@[simp] theorem offer_engine (p : Part) (cause : Cause) (d : Fin 8) : (p.offer cause d).engine = p.engine := by
  unfold offer; dsimp only; repeat' split
  all_goals simp
@[simp] theorem offer_clock (p : Part) (cause : Cause) (d : Fin 8) : (p.offer cause d).clock = p.clock := by
  unfold offer; dsimp only; repeat' split
  all_goals simp
@[simp] theorem offer_inputs (p : Part) (cause : Cause) (d : Fin 8) : (p.offer cause d).inputs = p.inputs := by
  unfold offer; dsimp only; repeat' split
  all_goals simp
@[simp] theorem offer_command (p : Part) (cause : Cause) (d : Fin 8) : (p.offer cause d).command = p.command := by
  unfold offer; dsimp only; repeat' split
  all_goals simp
@[simp] theorem offer_freeIndex (p : Part) (cause : Cause) (d : Fin 8) : (p.offer cause d).freeIndex = p.freeIndex := by
  unfold offer; dsimp only; repeat' split
  all_goals simp

/-! ### The order of an event's offers -/

/-- Whatever the free value, the offers reach exactly the domains they concern. -/
theorem mem_inOfferOrder (index : Nat) (domains : List (Fin 8)) (d : Fin 8) :
    d ∈ inOfferOrder index domains ↔ d ∈ domains := by
  unfold inOfferOrder
  split
  · rfl
  · rfl
  · by_cases h : d ∈ Config.offerOrder index <;> simp [h]

/-- Whatever the free value, no domain is offered twice in one event. -/
theorem nodup_inOfferOrder (index : Nat) {domains : List (Fin 8)} (h : domains.Nodup) :
    (inOfferOrder index domains).Nodup := by
  unfold inOfferOrder
  split
  · exact h
  · exact h
  · refine List.Nodup.append ((List.nodup_dedup _).filter _) (h.filter _) ?_
    intro d h1 h2
    simp only [List.mem_filter, List.mem_dedup] at h1 h2
    simp [h1.1] at h2

/-! ### offerAll -/

@[simp] theorem offerAll_resetAsserted (p : Part) (cause : Cause) : (p.offerAll cause).resetAsserted = p.resetAsserted := by
  unfold offerAll; exact foldl_keeps _ _ (fun p d => by simp) _ _
@[simp] theorem offerAll_engine (p : Part) (cause : Cause) : (p.offerAll cause).engine = p.engine := by
  unfold offerAll; exact foldl_keeps _ _ (fun p d => by simp) _ _
@[simp] theorem offerAll_clock (p : Part) (cause : Cause) : (p.offerAll cause).clock = p.clock := by
  unfold offerAll; exact foldl_keeps _ _ (fun p d => by simp) _ _
@[simp] theorem offerAll_inputs (p : Part) (cause : Cause) : (p.offerAll cause).inputs = p.inputs := by
  unfold offerAll; exact foldl_keeps _ _ (fun p d => by simp) _ _
@[simp] theorem offerAll_command (p : Part) (cause : Cause) : (p.offerAll cause).command = p.command := by
  unfold offerAll; exact foldl_keeps _ _ (fun p d => by simp) _ _

/-! ### pulse -/

@[simp] theorem pulse_resetAsserted (p : Part) (w : Bool) (d : Fin 8) : (p.pulse w d).resetAsserted = p.resetAsserted := by
  unfold pulse; split <;> simp
@[simp] theorem pulse_engine (p : Part) (w : Bool) (d : Fin 8) : (p.pulse w d).engine = p.engine := by
  unfold pulse; split <;> simp
@[simp] theorem pulse_clock (p : Part) (w : Bool) (d : Fin 8) : (p.pulse w d).clock = p.clock := by
  unfold pulse; split <;> simp
@[simp] theorem pulse_inputs (p : Part) (w : Bool) (d : Fin 8) : (p.pulse w d).inputs = p.inputs := by
  unfold pulse; split <;> simp
@[simp] theorem pulse_command (p : Part) (w : Bool) (d : Fin 8) : (p.pulse w d).command = p.command := by
  unfold pulse; split <;> simp
@[simp] theorem pulse_freeIndex (p : Part) (w : Bool) (d : Fin 8) : (p.pulse w d).freeIndex = p.freeIndex := by
  unfold pulse; split <;> simp

/-! ### contention -/

@[simp] theorem contention_resetAsserted (p : Part) (k : Fin 16) (lower upper : Option Request) (r : GuardResult) (dropped : Nat) (w : Bool) : (p.contention k lower upper r dropped w).resetAsserted = p.resetAsserted := by
  unfold contention; dsimp only; repeat' split
  all_goals simp
@[simp] theorem contention_engine (p : Part) (k : Fin 16) (lower upper : Option Request) (r : GuardResult) (dropped : Nat) (w : Bool) : (p.contention k lower upper r dropped w).engine = p.engine := by
  unfold contention; dsimp only; repeat' split
  all_goals simp
@[simp] theorem contention_clock (p : Part) (k : Fin 16) (lower upper : Option Request) (r : GuardResult) (dropped : Nat) (w : Bool) : (p.contention k lower upper r dropped w).clock = p.clock := by
  unfold contention; dsimp only; repeat' split
  all_goals simp
@[simp] theorem contention_inputs (p : Part) (k : Fin 16) (lower upper : Option Request) (r : GuardResult) (dropped : Nat) (w : Bool) : (p.contention k lower upper r dropped w).inputs = p.inputs := by
  unfold contention; dsimp only; repeat' split
  all_goals simp
@[simp] theorem contention_command (p : Part) (k : Fin 16) (lower upper : Option Request) (r : GuardResult) (dropped : Nat) (w : Bool) : (p.contention k lower upper r dropped w).command = p.command := by
  unfold contention; dsimp only; repeat' split
  all_goals simp
@[simp] theorem contention_freeIndex (p : Part) (k : Fin 16) (lower upper : Option Request) (r : GuardResult) (dropped : Nat) (w : Bool) : (p.contention k lower upper r dropped w).freeIndex = p.freeIndex := by
  unfold contention; dsimp only; repeat' split
  all_goals simp

/-! ### endWaits -/

@[simp] theorem endWait_resetAsserted (p : Part) (d : Fin 8) : (p.endWait d).resetAsserted = p.resetAsserted := by
  unfold endWait; split <;> simp
@[simp] theorem endWaits_resetAsserted (p : Part) : p.endWaits.resetAsserted = p.resetAsserted := by
  unfold endWaits; split <;> [rfl; exact foldl_keeps _ _ (fun p d => by simp) _ _]
@[simp] theorem endWait_engine (p : Part) (d : Fin 8) : (p.endWait d).engine = p.engine := by
  unfold endWait; split <;> simp
@[simp] theorem endWaits_engine (p : Part) : p.endWaits.engine = p.engine := by
  unfold endWaits; split <;> [rfl; exact foldl_keeps _ _ (fun p d => by simp) _ _]
@[simp] theorem endWait_clock (p : Part) (d : Fin 8) : (p.endWait d).clock = p.clock := by
  unfold endWait; split <;> simp
@[simp] theorem endWaits_clock (p : Part) : p.endWaits.clock = p.clock := by
  unfold endWaits; split <;> [rfl; exact foldl_keeps _ _ (fun p d => by simp) _ _]
@[simp] theorem endWait_inputs (p : Part) (d : Fin 8) : (p.endWait d).inputs = p.inputs := by
  unfold endWait; split <;> simp
@[simp] theorem endWaits_inputs (p : Part) : p.endWaits.inputs = p.inputs := by
  unfold endWaits; split <;> [rfl; exact foldl_keeps _ _ (fun p d => by simp) _ _]
@[simp] theorem endWait_command (p : Part) (d : Fin 8) : (p.endWait d).command = p.command := by
  unfold endWait; split <;> simp
@[simp] theorem endWaits_command (p : Part) : p.endWaits.command = p.command := by
  unfold endWaits; split <;> [rfl; exact foldl_keeps _ _ (fun p d => by simp) _ _]
@[simp] theorem endWait_freeIndex (p : Part) (d : Fin 8) : (p.endWait d).freeIndex = p.freeIndex := by
  unfold endWait; split <;> simp

/-! ### takeOver -/

@[simp] theorem takeOver_resetAsserted (p : Part) : (p.takeOver).resetAsserted = p.resetAsserted := by
  unfold takeOver; dsimp only; rw [requestSafe_resetAsserted]; exact foldl_keeps _ _ (fun p c => by simp) _ p
@[simp] theorem takeOver_engine (p : Part) : (p.takeOver).engine = p.engine := by
  unfold takeOver; dsimp only; rw [requestSafe_engine]; exact foldl_keeps _ _ (fun p c => by simp) _ p
@[simp] theorem takeOver_clock (p : Part) : (p.takeOver).clock = p.clock := by
  unfold takeOver; dsimp only; rw [requestSafe_clock]; exact foldl_keeps _ _ (fun p c => by simp) _ p
@[simp] theorem takeOver_timelines (p : Part) : (p.takeOver).timelines = p.timelines := by
  unfold takeOver; dsimp only; rw [requestSafe_timelines]; exact foldl_keeps _ _ (fun p c => by simp) _ p
@[simp] theorem takeOver_table (p : Part) : (p.takeOver).table = p.table := by
  unfold takeOver; dsimp only; rw [requestSafe_table]; exact foldl_keeps _ _ (fun p c => by simp) _ p
@[simp] theorem takeOver_inputs (p : Part) : (p.takeOver).inputs = p.inputs := by
  unfold takeOver; dsimp only; rw [requestSafe_inputs]; exact foldl_keeps _ _ (fun p c => by simp) _ p
@[simp] theorem takeOver_command (p : Part) : (p.takeOver).command = p.command := by
  unfold takeOver; dsimp only; rw [requestSafe_command]; exact foldl_keeps _ _ (fun p c => by simp) _ p
@[simp] theorem takeOver_freeIndex (p : Part) : (p.takeOver).freeIndex = p.freeIndex := by
  unfold takeOver; dsimp only; rw [requestSafe_freeIndex]; exact foldl_keeps _ _ (fun p c => by simp) _ p

/-! ### enterFatal -/

@[simp] theorem enterFatal_resetAsserted (p : Part) (reason : FatalReason) (ring : FatalRing) : (p.enterFatal reason ring).resetAsserted = p.resetAsserted := by simp [enterFatal, emptyStore, emptyTable]
@[simp] theorem enterFatal_clock (p : Part) (reason : FatalReason) (ring : FatalRing) : (p.enterFatal reason ring).clock = p.clock := by simp [enterFatal, emptyStore, emptyTable]
@[simp] theorem enterFatal_inputs (p : Part) (reason : FatalReason) (ring : FatalRing) : (p.enterFatal reason ring).inputs = p.inputs := by simp [enterFatal, emptyStore, emptyTable]

/-! ### checkHalted -/

@[simp] theorem checkHalted_resetAsserted (p : Part) : (p.checkHalted).resetAsserted = p.resetAsserted := by unfold checkHalted; split <;> rfl
@[simp] theorem checkHalted_clock (p : Part) : (p.checkHalted).clock = p.clock := by unfold checkHalted; split <;> rfl
@[simp] theorem checkHalted_output (p : Part) : (p.checkHalted).output = p.output := by unfold checkHalted; split <;> rfl
@[simp] theorem checkHalted_timelines (p : Part) : (p.checkHalted).timelines = p.timelines := by unfold checkHalted; split <;> rfl
@[simp] theorem checkHalted_table (p : Part) : (p.checkHalted).table = p.table := by unfold checkHalted; split <;> rfl
@[simp] theorem checkHalted_domains (p : Part) : (p.checkHalted).domains = p.domains := by unfold checkHalted; split <;> rfl
@[simp] theorem checkHalted_inputs (p : Part) : (p.checkHalted).inputs = p.inputs := by unfold checkHalted; split <;> rfl
@[simp] theorem checkHalted_command (p : Part) : (p.checkHalted).command = p.command := by unfold checkHalted; split <;> rfl
@[simp] theorem checkHalted_monitor (p : Part) : (p.checkHalted).monitor = p.monitor := by unfold checkHalted; split <;> rfl
@[simp] theorem checkHalted_freeIndex (p : Part) : (p.checkHalted).freeIndex = p.freeIndex := by unfold checkHalted; split <;> rfl

/-! ### checkFault -/

@[simp] theorem checkFault_resetAsserted (p : Part) : (p.checkFault).resetAsserted = p.resetAsserted := by unfold checkFault; split <;> simp
@[simp] theorem checkFault_clock (p : Part) : (p.checkFault).clock = p.clock := by unfold checkFault; split <;> simp
@[simp] theorem checkFault_inputs (p : Part) : (p.checkFault).inputs = p.inputs := by unfold checkFault; split <;> simp

/-! ### settle -/

@[simp] theorem settle_resetAsserted (p : Part) : (p.settle).resetAsserted = p.resetAsserted := by simp [settle]
@[simp] theorem settle_clock (p : Part) : (p.settle).clock = p.clock := by simp [settle]
@[simp] theorem settle_inputs (p : Part) : (p.settle).inputs = p.inputs := by simp [settle]

end Part

end Sys2Proof.Machine
end

