-- ==== Sys2Proof/Laws/Moves.lean ====
section
/-!
SUPPORT. What the shared operations can do, said once: each is a sequence of moves, a move being one small change of the part
with what a proof needs to know about it. An invariant that every move keeps is kept by every operation.
-/

namespace Sys2Proof.Machine

namespace Part

/-- A new timeline that removes, delays or advances steps of the old one: it is ordered if the old one was, and holds no more
steps of any queue. -/
structure Thins (tl tl' : List Step) : Prop where
  ordered : tl.Pairwise (fun a b => a.effective ≤ b.effective) → tl'.Pairwise fun a b => a.effective ≤ b.effective
  total : tl'.length ≤ tl.length
  origin : ∀ q : Fin 8, (tl'.filter fun s => s.origin == q).length ≤ (tl.filter fun s => s.origin == q).length

/-- One change of the part by a shared operation. `W` says of which completion queues a completion may be handed over. -/
inductive Move (W : Fin 4 → Prop) : Part → Part → Prop
  | completion (p : Part) (n : Fin 4) (c : Completion) (h : W n) : Move W p (p.handCompletion n c)
  | notice (p : Part) (n : Notice) : Move W p (p.handNotice n)
  | resolve (p : Part) (outcome : StepOutcome) (s : Step) : Move W p (p.resolve outcome s)
  | channel (p : Part) (c : Fin 32) (f : Channel → Channel) (level : ∀ ch, (f ch).level = ch.level)
      (safe : ∀ ch, (f ch).safe = ch.safe) : Move W p (p.modChannel c f)
  | guarded (p : Part) (k : Fin 16) (lower upper : Option Request) :
      Move W p (p.setPairView k ((p.pairView k).batch p.now lower upper).view)
  | expired (p : Part) (k : Fin 16) : Move W p (p.setPairView k (p.pairView k).expire.1)
  | domain (p : Part) (d : Fin 8) (f : Domain → Domain) (members : ∀ x, (f x).members = x.members) :
      Move W p (p.modDomain d f)
  | timeline (p : Part) (c : Fin 32) (tl : List Step) (h : Thins (p.timeline c) tl) : Move W p (p.setTimeline c tl)
  | counted (p : Part) : Move W p { p with freeIndex := p.freeIndex + 1 }

/-- Any number of moves. -/
abbrev Moves (W : Fin 4 → Prop) : Part → Part → Prop := Relation.ReflTransGen (Move W)

variable {W : Fin 4 → Prop} {p p' : Part}

theorem Moves.foldl {β : Type} (f : Part → β → Part) (h : ∀ p b, Moves W p (f p b)) (l : List β) (p : Part) :
    Moves W p (l.foldl f p) := by
  induction l generalizing p with
  | nil => exact .refl
  | cons b l ih => exact (h p b).trans (ih _)

/-- What every move keeps, moves keep. -/
theorem Moves.keep {P : Part → Prop} (h : Moves W p p') (step : ∀ a b, Move W a b → P a → P b) (hp : P p) : P p' := by
  induction h with
  | refl => exact hp
  | tail _ m ih => exact step _ _ m ih

/-- What every move leaves as it was, moves leave as it was. -/
theorem Moves.eq {γ : Type} (g : Part → γ) (h : Moves W p p') (step : ∀ a b, Move W a b → g b = g a) : g p' = g p := by
  induction h with
  | refl => rfl
  | tail _ m ih => rw [step _ _ m, ih]

/-- Moves, and then a change of a domain record that keeps its members. -/
theorem Moves.domain (h : Moves W p p') {d : Fin 8} {f : Domain → Domain} (hf : ∀ x, (f x).members = x.members) :
    Moves W p (p'.modDomain d f) := h.tail (.domain _ d f hf)

/-- Moves, and then a change of a channel record that keeps its level and safe level. -/
theorem Moves.channel (h : Moves W p p') {c : Fin 32} {f : Channel → Channel} (hl : ∀ x, (f x).level = x.level)
    (hs : ∀ x, (f x).safe = x.safe) : Moves W p (p'.modChannel c f) := h.tail (.channel _ c f hl hs)

theorem Thins.filter (tl : List Step) (f : Step → Bool) : Thins tl (tl.filter f) where
  ordered h := h.filter _
  total := List.length_filter_le _ _
  origin q := by
    rw [List.filter_filter, ← List.filter_filter (l := tl), List.filter_filter, ← List.countP_eq_length_filter,
      ← List.countP_eq_length_filter]
    exact List.countP_mono_left fun x _ hx => by simp_all

theorem moves_complete (p : Part) (q : Fin 8) (h : Header) (st : Status) (aux : Nat) (hW : W (p.queue q).cq) :
    Moves W p (p.complete q h st aux) := .single (.completion _ _ _ hW)

theorem moves_completeWith (p : Part) (q : Fin 8) (h : Header) (aux : Nat) (v : Nat) (hW : W (p.queue q).cq) :
    Moves W p (p.completeWith q h aux v) := .single (.completion _ _ _ hW)

theorem moves_notify (p : Part) (b : NoticeBody) : Moves W p (p.notify b) := .single (.notice _ _)

theorem moves_resolveAll (p : Part) (o : StepOutcome) (l : List Step) : Moves W p (p.resolveAll o l) :=
  Moves.foldl _ (fun p s => .single (.resolve p o s)) l p

theorem moves_dropWhere (p : Part) (which : Step → Bool) (cause : DropCause) (c : Fin 32) :
    Moves W p (p.dropWhere which cause c) :=
  .trans (.single (.timeline p c _ (Thins.filter _ _))) (moves_resolveAll _ _ _)

theorem moves_dropOn (p : Part) (l : List (Fin 32)) (which : Step → Bool) (cause : DropCause) :
    Moves W p (p.dropOn l which cause) :=
  Moves.foldl _ (fun p c => moves_dropWhere p which cause c) l p

theorem moves_forceChannel (p : Part) (r : ForceReason) (c : Fin 32) : Moves W p (p.forceChannel r c) :=
  .single (.channel _ _ _ (fun _ => rfl) fun _ => rfl)

theorem moves_unforceChannel (p : Part) (r : ForceReason) (c : Fin 32) : Moves W p (p.unforceChannel r c) :=
  .single (.channel _ _ _ (fun _ => by split <;> rfl) fun _ => by split <;> rfl)

theorem moves_noteReports (p : Part) (k : Fin 16) (l : List SafeReport) : Moves W p (p.noteReports k l) :=
  by
  unfold noteReports
  refine Moves.foldl _ (fun p r => ?_) l p
  exact Moves.domain .refl fun _ => rfl

theorem moves_checkSafe (p : Part) (d : Fin 8) : Moves W p (p.checkSafe d) := by
  unfold checkSafe
  dsimp only
  split
  · refine .trans ?_ (moves_notify _ _)
    exact Moves.domain .refl fun _ => rfl
  · exact .refl

theorem moves_checkReported (p : Part) (l : List SafeReport) : Moves W p (p.checkReported l) :=
  Moves.foldl _ (fun p r => moves_checkSafe p r.domain) l p

theorem moves_batch (p : Part) (k : Fin 16) (lo up : Option Request) : Moves W p (p.batch k lo up).1 :=
  .trans (.single (.guarded p k lo up)) (moves_noteReports _ _ _)

theorem moves_requestBatch (p : Part) (k : Fin 16) (lo up : Option Request) : Moves W p (p.requestBatch k lo up) :=
  .trans (moves_batch p k lo up) (moves_checkReported _ _)

theorem moves_requestOne (p : Part) (c : Fin 32) (r : Request) : Moves W p (p.requestOne c r) := by
  unfold requestOne
  split <;> exact moves_requestBatch _ _ _ _

theorem moves_requestSafe (p : Part) (l : List (Fin 32)) (kind : WaitKind) : Moves W p (p.requestSafe l kind) :=
  Moves.foldl _ (fun p k => moves_requestBatch p k _ _) _ p

theorem moves_forceMembers (p : Part) (l : List (Fin 32)) : Moves W p (p.forceMembers l) :=
  by
  unfold forceMembers
  refine Moves.foldl _ (fun p c => ?_) l p
  exact Moves.channel (moves_forceChannel p _ c) (fun _ => rfl) fun _ => rfl

theorem moves_immediateBatch (p : Part) (d : Fin 8) (k : Fin 16) (l : List (Fin 32)) :
    Moves W p (p.immediateBatch d k l) := by
  unfold immediateBatch
  dsimp only
  split
  · split
    · refine Moves.domain ?_ fun _ => rfl
      split
      · exact Moves.domain (moves_batch p k _ _) fun _ => rfl
      · exact moves_batch p k _ _
    · split
      · exact Moves.domain (moves_batch p k _ _) fun _ => rfl
      · exact moves_batch p k _ _
  · exact .refl

theorem moves_driveImmediate (p : Part) (d : Fin 8) (l : List (Fin 32)) : Moves W p (p.driveImmediate d l) :=
  Moves.foldl _ (fun p k => moves_immediateBatch p d k l) _ p

theorem moves_makeEntry (p : Part) (d : Fin 8) (n : Nat) (c : Fin 32) : Moves W p (p.makeEntry d n c) := by
  unfold makeEntry
  dsimp only
  split <;> exact Moves.domain (moves_batch p _ _ _) fun _ => rfl

theorem moves_makeZeroEntries (p : Part) (d : Fin 8) (l : List SequenceEntry) : Moves W p (p.makeZeroEntries d l) :=
  Moves.foldl _ (fun p x => by split <;> [exact moves_makeEntry p d _ _; exact .refl]) _ p

theorem moves_trip (p : Part) (d : Fin 8) (cause : Cause) : Moves W p (p.trip d cause) := by
  unfold trip
  dsimp only
  refine .trans ?_ (moves_checkSafe _ d)
  refine .trans ?_ (moves_notify _ _)
  refine .trans ?_ (moves_makeZeroEntries _ d _)
  refine .trans ?_ (moves_driveImmediate _ d _)
  split
  · refine .trans ?_ (moves_dropOn _ _ _ _)
    refine .trans ?_ (moves_forceMembers _ _)
    exact Moves.domain .refl fun _ => rfl
  · refine .trans ?_ (moves_forceMembers _ _)
    exact Moves.domain .refl fun _ => rfl

theorem moves_addCause (p : Part) (d : Fin 8) (cause : Cause) : Moves W p (p.addCause d cause) := by
  unfold addCause
  dsimp only
  split
  · exact .refl
  · refine .trans ?_ (moves_notify _ _)
    exact Moves.domain .refl fun _ => rfl

theorem moves_tripArmed (p : Part) (d : Fin 8) (cause : Cause) : Moves W p (p.tripArmed d cause) := by
  unfold tripArmed
  dsimp only
  split
  · exact (moves_trip p d cause).trans (moves_addCause _ _ _)
  · exact moves_trip p d cause

theorem moves_offer (p : Part) (cause : Cause) (d : Fin 8) : Moves W p (p.offer cause d) := by
  unfold offer
  dsimp only
  split
  · split
    · exact .refl
    · exact moves_tripArmed p d cause
    all_goals
      split
      · exact .refl
      · exact moves_addCause p d cause
  · exact .refl

theorem moves_offerAll (p : Part) (cause : Cause) : Moves W p (p.offerAll cause) :=
  (Relation.ReflTransGen.single (.counted p)).trans (Moves.foldl _ (fun p d => moves_offer p cause d) _ _)

theorem moves_pulse (p : Part) (w : Bool) (d : Fin 8) : Moves W p (p.pulse w d) := by
  unfold pulse
  split
  · exact Moves.domain .refl fun _ => rfl
  · exact moves_offer _ _ _

theorem moves_endWait (p : Part) (d : Fin 8) : Moves W p (p.endWait d) := by
  unfold endWait
  split
  · exact Moves.domain (moves_offer _ _ _) fun _ => rfl
  · exact .refl

theorem moves_endWaits (p : Part) : Moves W p p.endWaits := by
  unfold endWaits
  split
  · exact .refl
  · exact (Relation.ReflTransGen.single (.counted p)).trans (Moves.foldl _ (fun p d => moves_endWait p d) _ _)

theorem mem_awaiting (p : Part) (d : Fin 8) : d ∈ p.awaiting ↔ (p.domain d).contentionWaits = true := by
  simp [awaiting]

/-- With no CONTENTION pulse waiting, the end of a time value changes nothing. -/
theorem endWaits_none (h : ∀ d, (p.domain d).contentionWaits = false) : p.endWaits = p := by
  unfold endWaits awaiting
  rw [if_pos (by simp [h])]

theorem moves_contention (p : Part) (k : Fin 16) (lo up : Option Request) (r : GuardResult) (n : Nat) (w : Bool) :
    Moves W p (p.contention k lo up r n w) := by
  unfold contention
  dsimp only
  generalize NoticeBody.pairContention k _ _ _ _ _ _ _ = b
  split
  · exact moves_notify _ _
  · split
    · exact .trans (moves_notify _ _) (moves_pulse _ _ _)
    · exact moves_notify _ _

theorem moves_takeOver (p : Part) : Moves W p p.takeOver :=
  .trans (Moves.foldl _ (fun p c => moves_forceChannel p _ c) _ p) (moves_requestSafe _ _ _)

end Part

end Sys2Proof.Machine
end

