-- ==== Sys2Proof/Laws/Hands.lean ====
section
/-!
SUPPORT. What handing over does to the Posting Unit, and why an event whose next write the windows allow meets no posting
fault.
-/

namespace Sys2Proof.Machine

namespace Part

/-- An issue changes the posting write in flight, and of the Posting Unit only the fault, the pair taken, the sequence number
and the lost count. -/
structure Issued (p p' : Part) : Prop where
  rest : p' = { p with posting := p'.posting, monitor := { p.monitor with posting := p'.monitor.posting } }
  writeList : p'.posting.writeList = p.posting.writeList
  cqs : p'.posting.cqs = p.posting.cqs
  causes : p'.posting.causes = p.posting.causes
  enables : p'.posting.enables = p.posting.enables
  abandoned : p'.posting.abandoned = p.posting.abandoned
  restore : p'.posting.restore = p.posting.restore
  ring : { p'.posting.ring with sequence := p.posting.ring.sequence, lost := p.posting.ring.lost } = p.posting.ring
  lost : p'.posting.ring.lost ≤ p.posting.ring.lost

theorem Issued.refl (p : Part) : Issued p p := ⟨rfl, rfl, rfl, rfl, rfl, rfl, rfl, rfl, le_rfl⟩

theorem issued_issueWrite (p : Part) (purpose : AccessPurpose) (ring : FatalRing) (a : Nat) (data : List Byte) :
    Issued p (p.issueWrite purpose ring a data) := by
  unfold issueWrite
  split <;> exact ⟨rfl, rfl, rfl, rfl, rfl, rfl, rfl, rfl, le_rfl⟩

theorem issued_issueNotice (p : Part) (n : Notice) : Issued p (p.issueNotice n) := by
  unfold issueNotice issueWrite
  dsimp only
  split <;> exact ⟨rfl, rfl, rfl, rfl, rfl, rfl, rfl, rfl, Nat.zero_le _⟩

theorem issued_issueNext (p : Part) : Issued p p.issueNext := by
  unfold issueNext
  split
  · split
    · exact .refl p
    · exact issued_issueWrite ..
    · exact issued_issueNotice ..
  · exact .refl p

/-- The write list of the part after an item has joined. -/
@[simp] theorem joinWriteList_writeList (p : Part) (i : Item) :
    (p.joinWriteList i).posting.writeList = p.posting.writeList ++ [i] :=
  (issued_issueNext _).writeList

/-- A completion's record has 16 bytes and a notice's 32 (section 12.4). -/
theorem leBytes_length (size n : Nat) : (leBytes size n).length = size := by
  induction size generalizing n with
  | zero => rfl
  | succ size ih => simp [leBytes, ih]

theorem completionBytes_length (c : Completion) (phase : Bool) : (completionBytes c phase).length = 16 := by
  simp [completionBytes, leBytes_length]

theorem fields_length (b : NoticeBody) : b.fields.length ≤ 16 := by
  cases b <;> simp [NoticeBody.fields, leBytes_length]

theorem noticeBytes_length (n : Notice) (sequence lost : Nat) (phase : Bool) :
    (noticeBytes n sequence lost phase).length = 32 := by
  have := fields_length n.body
  simp [noticeBytes, leBytes_length]
  omega

/-- No posting fault has been met, and none will be by handing over to the completion queues in `W` or by a notice: nothing is
written, a write is in flight, or the next item goes to an entry the windows allow. -/
structure Calm (W : Fin 4 → Prop) (p : Part) : Prop where
  fault : p.posting.fault = none
  entries : ∀ i e, p.entry i = some e → W e.cq
  next : p.isPosting = false ∨ p.monitor.posting.isSome = true ∨
    (p.posting.writeList = [] ∧ (∀ n, W n → p.tailWritable n = true) ∧
      (p.posting.ring.enabled = true → p.noticeTailWritable = true))

variable {W : Fin 4 → Prop} {p p' : Part}

/-- Calm depends on the engine's state, the table, the Posting Unit and the monitor alone. -/
theorem Calm.congr (h : Calm W p) (engine : p'.engine.state = p.engine.state) (table : p'.table = p.table)
    (posting : p'.posting = p.posting) (monitor : p'.monitor = p.monitor) : Calm W p' := by
  obtain ⟨a, b, c⟩ := h
  refine ⟨by rw [posting]; exact a, fun i e he => b i e (by simpa [entry, table] using he), ?_⟩
  simp only [isPosting, engine, tailWritable, noticeTailWritable, cq, posting, monitor] at c ⊢
  exact c

theorem isPosting_congr (engine : p'.engine.state = p.engine.state) : p'.isPosting = p.isPosting := by
  simp [isPosting, engine]

theorem Calm.joinCompletion (h : Calm W p) (hp : p.isPosting = true) (n : Fin 4) (c : Completion) (hn : W n) :
    Calm W (p.joinWriteList (.completion n c)) := by
  refine ⟨?_, fun i e he => h.entries i e (by simpa [entry] using he), ?_⟩
  · have hf := h.fault
    rcases h.next with h1 | h1 | ⟨h1, h2, -⟩
    · simp_all
    · have : p.monitor.posting ≠ none := by intro e; simp [e] at h1
      simp [joinWriteList, issueNext, hf, this]
    · have h3 := h2 n hn
      simp only [tailWritable] at h3
      simp only [joinWriteList, issueNext, modPosting_posting, h1, List.nil_append]
      split
      · simp [issueCompletion, issueWrite, completionBytes_length, cq, modPosting, hf] at h3 ⊢
        simp [h3]
      · exact hf
  · have hi := (issued_issueNext (p.modPosting fun u => { u with writeList := u.writeList ++ [.completion n c] }))
    right; left
    rcases h.next with h1 | h1 | ⟨h1, h2, -⟩
    · simp_all
    · have : p.monitor.posting ≠ none := by intro e; simp [e] at h1
      simp [joinWriteList, issueNext, this, h1]
    · have h3 := h2 n hn
      have hf := h.fault
      simp only [tailWritable] at h3
      by_cases hm : p.monitor.posting = none
      · have hp' : (p.modPosting fun u => { u with writeList := u.writeList ++ [.completion n c] }).isPosting = true := hp
        simp only [joinWriteList, issueNext, hp', modPosting_posting, h1, List.nil_append, modPosting_monitor, hm, hf]
        simp [issueCompletion, issueWrite, completionBytes_length, cq, modPosting] at h3 ⊢
        simp [h3]
      · have : p.monitor.posting.isSome = true := Option.isSome_iff_ne_none.2 hm
        simp [joinWriteList, issueNext, hm, this]

theorem Calm.joinNotice (h : Calm W p) (hp : p.isPosting = true) (n : Notice) (hn : p.posting.ring.enabled = true) :
    Calm W (p.joinWriteList (.notice n)) := by
  have key : (p.joinWriteList (.notice n)).posting.fault = none ∧
      (p.joinWriteList (.notice n)).monitor.posting.isSome = true := by
    have hf := h.fault
    rcases h.next with h1 | h1 | ⟨h1, -, h2⟩
    · simp_all
    · have : p.monitor.posting ≠ none := by intro e; simp [e] at h1
      simp [joinWriteList, issueNext, hf, this, h1]
    · by_cases hm : p.monitor.posting = none
      · have h3 := h2 hn
        simp only [noticeTailWritable] at h3
        have hp' : (p.modPosting fun u => { u with writeList := u.writeList ++ [.notice n] }).isPosting = true := hp
        simp only [joinWriteList, issueNext, hp', modPosting_posting, h1, List.nil_append, modPosting_monitor, hm, hf]
        simp [issueNotice, issueWrite, noticeBytes_length, modPosting, modMonitor, h3, hf]
      · have : p.monitor.posting.isSome = true := Option.isSome_iff_ne_none.2 hm
        simp [joinWriteList, issueNext, hm, this, hf]
  exact ⟨key.1, fun i e he => h.entries i e (by simpa [entry] using he), .inr (.inl key.2)⟩

theorem Calm.handCompletion (h : Calm W p) (n : Fin 4) (c : Completion) (hn : W n) : Calm W (p.handCompletion n c) := by
  unfold Part.handCompletion
  split
  · rename_i hp
    refine Calm.joinCompletion (p := p.returnCredit n) ?_ hp n c hn
    refine ⟨h.fault, h.entries, ?_⟩
    refine h.next.imp id (Or.imp id fun ⟨a, b, d⟩ => ⟨a, fun m hm => ?_, d⟩)
    have := b m hm
    simp only [tailWritable, returnCredit, cq_modCq] at this ⊢
    split
    · rename_i e; subst e; exact this
    · exact this
  · exact h

theorem Calm.modRing (h : Calm W p) (f : NoticeRing → NoticeRing)
    (hf : (f p.posting.ring).enabled = p.posting.ring.enabled ∧ (f p.posting.ring).base = p.posting.ring.base ∧
      (f p.posting.ring).tail = p.posting.ring.tail) : Calm W (p.modRing f) := by
  refine ⟨h.fault, h.entries, h.next.imp id (Or.imp id fun ⟨a, b, d⟩ => ⟨a, b, fun he => ?_⟩)⟩
  have := d (hf.1 ▸ he)
  simpa [noticeTailWritable, Part.modRing, hf] using this

theorem Calm.handNotice (h : Calm W p) (n : Notice) : Calm W (p.handNotice n) := by
  unfold Part.handNotice
  split
  · exact h
  · rename_i hc
    simp only [Bool.or_eq_true, Bool.not_eq_true', not_or, Bool.not_eq_false] at hc
    split
    · exact h.joinNotice hc.1 n hc.2
    · split <;> exact h.modRing _ ⟨rfl, rfl, rfl⟩

theorem Calm.setEntry (h : Calm W p) (i : Fin 64) (e : Option TableEntry) (he : ∀ x, e = some x → W x.cq) :
    Calm W (p.setEntry i e) := by
  refine ⟨h.fault, fun j x hx => ?_, h.next⟩
  rw [entry_setEntry] at hx
  split at hx
  · exact he x hx
  · exact h.entries j x hx

theorem report_cq (e : TableEntry) (o : StepOutcome) (t : Nat) : (e.report o t).cq = e.cq := by
  cases o <;> rfl

theorem Calm.resolve (h : Calm W p) (o : StepOutcome) (s : Step) : Calm W (p.resolve o s) := by
  unfold Part.resolve
  split
  · exact h
  · split
    · exact h
    · rename_i i _ _ e he
      have hw := h.entries _ _ he
      dsimp only
      split
      · exact (h.setEntry i none (by simp)).handCompletion _ _ (by rw [report_cq]; exact hw)
      · exact h.setEntry i _ fun x hx => by cases hx; rw [report_cq]; exact hw

theorem Calm.move (m : Move W p p') (h : Calm W p) : Calm W p' := by
  cases m with
  | completion n c hn => exact h.handCompletion n c hn
  | notice n => exact h.handNotice n
  | resolve o s => exact h.resolve o s
  | channel c f _ _ => exact h.congr rfl rfl rfl rfl
  | guarded k lo up => exact h.congr rfl rfl rfl rfl
  | expired k => exact h.congr rfl rfl rfl rfl
  | domain d f _ => exact h.congr rfl rfl rfl rfl
  | timeline c tl _ => exact h.congr rfl rfl rfl rfl
  | counted => exact h.congr rfl rfl rfl rfl

theorem Calm.moves (m : Moves W p p') (h : Calm W p) : Calm W p' := m.keep (fun _ _ m h => h.move m) h

/-- The hypothesis of the statements, as `Calm`. -/
theorem calm_of_writesAllowed (h : p.writesAllowed = true) : Calm (fun n => p.owes n = true) p := by
  simp only [writesAllowed, Bool.and_eq_true, Bool.or_eq_true, Bool.not_eq_true', Option.isNone_iff_eq_none,
    List.isEmpty_iff, List.all_eq_true, List.mem_finRange, true_implies] at h
  refine ⟨h.1, fun i e he => ?_, ?_⟩
  · simp only [owes, Bool.or_eq_true, List.any_eq_true]
    exact .inr ⟨i, List.mem_finRange _, by simp [he]⟩
  · rcases h.2 with (h1 | h1) | ⟨⟨h1, h2⟩, h3⟩
    · exact .inl h1
    · exact .inr (.inl h1)
    · refine .inr (.inr ⟨h1, fun n hn => ?_, fun he => ?_⟩)
      · rcases h2 n with h | h
        · rw [h] at hn; cases hn
        · exact h
      · rcases h3 with h | h
        · rw [h] at he; cases he
        · exact h

/-- A queue that is not DISABLED, or that occupies the command path, owes its completions to its completion queue. -/
theorem owes_queue (p : Part) (q : Fin 8) (h : (p.queue q).state ≠ .disabled ∨ pathQueue p.command.path = some q) :
    p.owes (p.queue q).cq = true := by
  simp only [owes, Bool.or_eq_true, List.any_eq_true, Bool.and_eq_true, bne_iff_ne, beq_iff_eq]
  exact .inl ⟨q, List.mem_finRange _, h, rfl⟩

/-- What Engine Control does at the end of an event when no posting fault was met and no HALT is under way. -/
theorem settle_calm (h : p.posting.fault = none) (he : p.engine.state ≠ .halting) : p.settle = p := by
  simp [settle, checkFault, h, checkHalted, he]

theorem settle_settled (h : p.settled = true) : p.settle = p := by
  simp only [settled, Bool.and_eq_true, Option.isNone_iff_eq_none, Bool.not_eq_true', Bool.and_eq_false_iff,
    beq_eq_false_iff_ne] at h
  obtain ⟨h1, h2⟩ := h
  simp only [settle, checkFault, h1, checkHalted]
  rw [if_neg]
  rintro ⟨a, b⟩
  rcases h2 with h2 | h2
  · exact h2 a
  · rw [h2] at b; cases b

end Part

/-- An event whose effect is given takes the machine to that effect, settled. -/
theorem event_some {f : Part → Option Part} {s : State} {p : Part} (hr : s.part.resetAsserted = false)
    (h : f s.part = some p) : event f s = .next { s with part := p.settle } := by
  simp [event, hr, h]

end Sys2Proof.Machine
end

