-- ==== Sys2Proof/Laws/Events.lean ====
section
/-!
SUPPORT. What a command can do, said once: but for a hard reset, every command is a sequence of moves and of the changes listed
here. An invariant that each of them keeps is kept by every step.
-/

namespace Sys2Proof.Machine

namespace Part

/-- One change of the part by a command. `L` says that the command may load new quotas, `R` that it may
place steps. -/
inductive Change (L R : Prop) : Part → Part → Prop
  | move {p p' : Part} (m : Move (fun _ => True) p p') : Change L R p p'
  /-- A change that leaves the levels and the pairs' configuration, adds no step and no notice, and keeps the members, or
  empties every domain, and the quotas, unless the command loads them. -/
  | plain {p p' : Part} (levels : ∀ c, (p'.channel c).level = (p.channel c).level)
      (pairs : ∀ k, (p'.pair k).enabled = (p.pair k).enabled ∧ (p'.pair k).polarity = (p.pair k).polarity)
      (thins : ∀ c, Thins (p.timeline c) (p'.timeline c))
      (members : (∀ d, (p'.domain d).members = (p.domain d).members) ∨ ∀ d, (p'.domain d).members = 0)
      (quotas : L ∨ ∀ q, (p'.queue q).quota = (p.queue q).quota)
      (pending : p'.posting.ring.pending.length ≤ p.posting.ring.pending.length)
      (lost : p.posting.ring.lost ≤ Config.lostLimit → p'.posting.ring.lost ≤ Config.lostLimit) : Change L R p p'
  | pair (p : Part) (k : Fin 16) (new : Pair)
      (safe : ¬(new.isActive (p.channel (channelOf k .lower)).level = true ∧
        new.isActive (p.channel (channelOf k .upper)).level = true))
      (apart : new.enabled = true → p.domainOf (channelOf k .lower) = p.domainOf (channelOf k .upper)) :
      Change L R p (p.modPair k fun _ => new)
  | members (p : Part) (d : Fin 8) (f : Domain → Domain) (m : BitVec 32) (hm : ∀ x, (f x).members = m)
      (others : ∀ e, e ≠ d → (p.domain e).members &&& m = 0)
      (pairs : ∀ k, (p.pair k).enabled = true →
        m.getLsbD (channelOf k .lower).val = m.getLsbD (channelOf k .upper).val) :
      Change L R p (p.modDomain d f)
  | place (p : Part) (c : Fin 32) (s : Step) (may : R) (quota : p.inUse s.origin < (p.queue s.origin).quota)
      (slot : p.storedSteps < Config.storeSlots) : Change L R p (p.setTimeline c (placeStep s (p.timeline c)))

/-- Any number of changes. -/
abbrev Changes (L R : Prop) : Part → Part → Prop := Relation.ReflTransGen (Change L R)

variable {L R : Prop} {p p' : Part}

theorem Moves.changes (h : Moves (fun _ => True) p p') : Changes L R p p' :=
  by
  induction h with
  | refl => exact .refl
  | tail _ m ih => exact ih.tail (.move m)

theorem Changes.keep {P : Part → Prop} (h : Changes L R p p') (step : ∀ a b, Change L R a b → P a → P b) (hp : P p) :
    P p' := by
  induction h with
  | refl => exact hp
  | tail _ m ih => exact step _ _ m ih

theorem Thins.refl (tl : List Step) : Thins tl tl := ⟨id, le_rfl, fun _ => le_rfl⟩

/-- A change of the blocks the invariants do not look at. -/
theorem Change.frame (output : p'.output = p.output) (timelines : p'.timelines = p.timelines)
    (domains : p'.domains = p.domains) (quotas : ∀ q, (p'.queue q).quota = (p.queue q).quota)
    (pending : p'.posting.ring.pending.length ≤ p.posting.ring.pending.length)
    (lost : p.posting.ring.lost ≤ Config.lostLimit → p'.posting.ring.lost ≤ Config.lostLimit) : Change L R p p' :=
  .plain (fun c => by unfold Part.channel; rw [output]) (fun k => by unfold Part.pair; rw [output]; exact ⟨rfl, rfl⟩)
    (fun c => by unfold Part.timeline; rw [timelines]; exact Thins.refl _)
    (.inl fun d => by unfold Part.domain; rw [domains]) (.inr quotas) pending lost

/-! ### A change by one of the modifiers, after other changes -/

theorem Changes.modEngine (h : Changes L R p p') {f : Engine → Engine} : Changes L R p (p'.modEngine f) :=
  h.tail (.frame rfl rfl rfl (fun _ => rfl) le_rfl id)
theorem Changes.modMonitor (h : Changes L R p p') {f : Monitor → Monitor} : Changes L R p (p'.modMonitor f) :=
  h.tail (.frame rfl rfl rfl (fun _ => rfl) le_rfl id)
theorem Changes.modClock (h : Changes L R p p') {f : Clock → Clock} : Changes L R p (p'.modClock f) :=
  h.tail (.frame rfl rfl rfl (fun _ => rfl) le_rfl id)
theorem Changes.modSupervisor (h : Changes L R p p') {f : Supervisor → Supervisor} : Changes L R p (p'.modSupervisor f) :=
  h.tail (.frame rfl rfl rfl (fun _ => rfl) le_rfl id)
theorem Changes.modInput (h : Changes L R p p') {n : Fin 16} {f : FaultInput → FaultInput} :
    Changes L R p (p'.modInput n f) := h.tail (.frame rfl rfl rfl (fun _ => rfl) le_rfl id)
theorem Changes.setPath (h : Changes L R p p') {x : CommandPath} : Changes L R p (p'.setPath x) :=
  h.tail (.frame rfl rfl rfl (fun _ => rfl) le_rfl id)
theorem Changes.setCause (h : Changes L R p p') {x : BitVec 7} : Changes L R p (p'.setCause x) :=
  h.tail (.frame rfl rfl rfl (fun _ => rfl) le_rfl id)
theorem Changes.setEntry (h : Changes L R p p') {i : Fin 64} {e : Option TableEntry} : Changes L R p (p'.setEntry i e) :=
  h.tail (.frame rfl rfl rfl (fun _ => rfl) le_rfl id)
theorem Changes.modCq (h : Changes L R p p') {n : Fin 4} {f : CompletionContext → CompletionContext} :
    Changes L R p (p'.modCq n f) := h.tail (.frame rfl rfl rfl (fun _ => rfl) le_rfl id)
theorem Changes.modPosting (h : Changes L R p p') {f : Posting → Posting}
    (pending : (f p'.posting).ring.pending.length ≤ p'.posting.ring.pending.length)
    (lost : p'.posting.ring.lost ≤ Config.lostLimit → (f p'.posting).ring.lost ≤ Config.lostLimit) :
    Changes L R p (p'.modPosting f) := h.tail (.frame rfl rfl rfl (fun _ => rfl) pending lost)
theorem Changes.modRing (h : Changes L R p p') {f : NoticeRing → NoticeRing}
    (pending : (f p'.posting.ring).pending.length ≤ p'.posting.ring.pending.length)
    (lost : p'.posting.ring.lost ≤ Config.lostLimit → (f p'.posting.ring).lost ≤ Config.lostLimit) :
    Changes L R p (p'.modRing f) := h.tail (.frame rfl rfl rfl (fun _ => rfl) pending lost)
theorem Changes.modCommand (h : Changes L R p p') {f : CommandUnit → CommandUnit}
    (hf : ∀ q : Fin 8, (f p'.command).queues[q].quota = p'.command.queues[q].quota) : Changes L R p (p'.modCommand f) :=
  h.tail (.frame rfl rfl rfl hf le_rfl id)
theorem Changes.modQueue (h : Changes L R p p') {q : Fin 8} {f : QueueContext → QueueContext}
    (hf : ∀ x, (f x).quota = x.quota) : Changes L R p (p'.modQueue q f) :=
  h.tail (.frame rfl rfl rfl (fun q' => by rw [queue_modQueue]; split <;> simp_all) le_rfl id)
theorem Changes.channel (h : Changes L R p p') {c : Fin 32} {f : Channel → Channel} (hf : ∀ x, (f x).level = x.level) :
    Changes L R p (p'.modChannel c f) :=
  h.tail (.plain (fun c' => by rw [channel_modChannel]; split <;> simp_all) (fun _ => ⟨rfl, rfl⟩) (fun _ => Thins.refl _)
    (.inl fun _ => rfl) (.inr fun _ => rfl) le_rfl id)
theorem Changes.modDomain (h : Changes L R p p') {d : Fin 8} {f : Domain → Domain} (hf : ∀ x, (f x).members = x.members) :
    Changes L R p (p'.modDomain d f) := h.tail (.move (.domain _ d f hf))
theorem Changes.moves (h : Changes L R p p') {p'' : Part} (m : Moves (fun _ => True) p' p'') : Changes L R p p'' :=
  h.trans m.changes
theorem Changes.complete (h : Changes L R p p') {q : Fin 8} {x : Header} {st : Status} {aux : Nat} :
    Changes L R p (p'.complete q x st aux) := h.moves (moves_complete _ q x st aux trivial)
theorem Changes.completeWith (h : Changes L R p p') {q : Fin 8} {x : Header} {aux : Nat} {v : Nat} :
    Changes L R p (p'.completeWith q x aux v) := h.moves (moves_completeWith _ q x aux v trivial)
theorem Changes.notify (h : Changes L R p p') {b : NoticeBody} : Changes L R p (p'.notify b) := h.moves (moves_notify _ b)

theorem Changes.foldl {β : Type} (f : Part → β → Part) (h : ∀ p b, Changes L R p (f p b)) (l : List β) (p : Part) :
    Changes L R p (l.foldl f p) := by
  induction l generalizing p with
  | nil => exact .refl
  | cons b l ih => exact (h p b).trans (ih _)

/-! ## Engine Control -/

theorem changes_settle (p : Part) : Changes L R p p.settle := by
  have hh : ∀ p : Part, Changes L R p p.checkHalted := fun p => by
    unfold checkHalted
    split
    · exact Changes.setCause (Changes.modEngine .refl)
    · exact .refl
  refine .trans ?_ (hh _)
  unfold checkFault
  split
  · exact .refl
  · unfold enterFatal
    dsimp only
    refine Changes.setCause (Changes.modEngine ?_)
    refine Changes.moves (Changes.moves ?_ (moves_offerAll _ _)) (moves_takeOver _)
    refine .single (.plain (fun _ => rfl) (fun _ => ⟨rfl, rfl⟩) (fun c => ?_) (.inl fun _ => rfl) (.inr fun _ => rfl)
      (Nat.zero_le _) id)
    have : ((((p.modEngine fun e => { e with state := .fatal }).modCommand fun u =>
      { u with path := discardPath u.path }).modPosting stopPosting).emptyStore.emptyTable).timeline c = [] := by
      simp [timeline, emptyStore, emptyTable]
    rw [this]
    exact ⟨fun _ => .nil, Nat.zero_le _, fun _ => Nat.zero_le _⟩

theorem changes_softReset (p : Part) : Changes L R p p.softReset := by
  unfold softReset
  refine Changes.moves (.single ?_) (moves_requestSafe _ _ _)
  refine .plain (fun c => by simp [Part.channel, softResetBlocks, softResetChannel]) (fun _ => ⟨rfl, rfl⟩) (fun c => ?_)
    (.inr fun d => by simp [Part.domain, softResetBlocks, Domain.reset])
    (.inr fun q => by simp [Part.queue, softResetBlocks, softResetCommand, softResetQueue])
    (Nat.zero_le _) (fun _ => Nat.zero_le _)
  have : p.softResetBlocks.timeline c = [] := by simp [Part.timeline, softResetBlocks]
  rw [this]
  exact ⟨fun _ => .nil, Nat.zero_le _, fun _ => Nat.zero_le _⟩

theorem changes_haltQueue (p : Part) (q : Fin 8) : Changes L R p (p.haltQueue q) := by
  unfold haltQueue
  split
  · unfold completeHeld
    refine Changes.modQueue ?_ fun _ => rfl
    refine Changes.complete ?_
    exact Changes.modQueue .refl fun _ => rfl
  · exact .refl

theorem changes_haltList (p : Part) : Changes L R p p.haltList := by
  unfold haltList
  split
  · exact Changes.complete .refl
  · exact .refl

theorem changes_halt (p : Part) : Changes L R p p.halt := by
  unfold halt discardRead
  dsimp only
  refine Changes.moves (Changes.moves (Changes.moves ?_ (moves_dropOn _ _ _ _)) (moves_offerAll _ _)) (moves_takeOver _)
  refine Changes.setPath (.trans ?_ (changes_haltList _))
  exact .trans (Changes.modEngine .refl) (Changes.foldl _ changes_haltQueue _ _)

theorem changes_controlWrite (p : Part) (op : BitVec 4) : Changes L R p (p.controlWrite op) := by
  have hr : ∀ o, Changes L R p (p.refuseControl o) := fun o => Changes.modEngine .refl
  unfold controlWrite
  split
  · unfold controlStart
    split
    · unfold requestBlock
      dsimp only
      refine Changes.modMonitor (Changes.modEngine ?_)
      split
      · unfold abandonPosting
        exact Changes.modPosting .refl (Nat.zero_le _) id
      · exact .refl
    · exact hr _
  · unfold controlHalt
    split
    · exact changes_halt p
    · exact hr _
  · exact changes_softReset p
  · exact hr _

theorem changes_rejectNotify (p : Part) : Changes L R p p.rejectNotify := by
  unfold rejectNotify
  exact Changes.setCause .refl

theorem changes_completeHeld (p : Part) (q : Fin 8) (held : Held) (st : Status) (aux : Nat) :
    Changes L R p (p.completeHeld q held st aux) := by
  unfold completeHeld
  refine Changes.complete ?_
  exact Changes.modQueue .refl fun _ => rfl

theorem changes_completeParked (p : Part) (q : Fin 8) : Changes L R p (p.completeParked q) := by
  unfold completeParked
  split
  · exact .refl
  · exact changes_completeHeld ..

theorem changes_discardFetch (p : Part) (q : Fin 8) : Changes L R p (p.discardFetch q) := by
  unfold discardFetch
  split
  · split
    · exact Changes.setPath .refl
    · exact .refl
  · exact .refl

theorem changes_queueError (p : Part) (q : Fin 8) (r : QueueErrorReason) (i : Nat) (b : Bool) :
    Changes L R p (p.queueError q r i b) := by
  unfold queueError
  dsimp only
  refine Changes.notify ?_
  exact Changes.modQueue .refl fun _ => rfl

theorem changes_issueNext (p : Part) : Changes L R p p.issueNext := by
  have hi := issued_issueNext p
  refine .single (.frame (by simp) (by simp) (by simp) (fun q => by simp [Part.queue]) ?_ ?_)
  · exact le_of_eq (congrArg (fun r => r.pending.length) hi.ring)
  · exact fun h => hi.lost.trans h

theorem changes_joinWriteList (p : Part) (i : Item) : Changes L R p (p.joinWriteList i) :=
  .trans (Changes.modPosting (f := fun u => { u with writeList := u.writeList ++ [i] }) .refl le_rfl id)
    (changes_issueNext _)

theorem changes_movePending (n : Nat) (p : Part) : Changes L R p (movePending n p) := by
  induction n generalizing p with
  | zero => exact .refl
  | succ n ih =>
    unfold movePending
    split
    · exact .refl
    · rename_i x rest hx
      split
      · refine .trans ?_ (ih _)
        refine .trans ?_ (changes_joinWriteList _ _)
        exact Changes.modRing .refl (by simp [hx]) id
      · exact .refl

theorem changes_consume (p : Part) (t : BitVec 4) (i : BitVec 16) : Changes L R p (p.consume t i) := by
  unfold consume
  split
  · exact changes_rejectNotify p
  · split
    · unfold consumeCq
      dsimp only
      split
      · exact Changes.modCq .refl
      · exact changes_rejectNotify p
    · split
      · unfold consumeRing
        dsimp only
        split
        · refine .trans ?_ (changes_movePending _ _)
          exact Changes.modRing .refl le_rfl id
        · exact changes_rejectNotify p
      · exact changes_rejectNotify p

theorem changes_notifyWrite (p : Part) (op t : BitVec 4) (i : BitVec 16) : Changes L R p (p.notifyWrite op t i) := by
  unfold notifyWrite
  split
  · unfold postTail
    split
    · exact changes_rejectNotify p
    · split
      · exact changes_rejectNotify p
      · split
        · exact Changes.modQueue .refl fun _ => rfl
        · exact .trans (changes_completeParked _ _) (.trans (changes_discardFetch _ _) (changes_queueError ..))
  · exact changes_consume p t i
  · unfold resetQueue
    split
    · exact changes_rejectNotify p
    · exact Changes.modQueue (.trans (changes_completeParked _ _) (changes_discardFetch _ _)) fun _ => rfl
  · exact changes_rejectNotify p

theorem changes_registerWrite (p : Part) (o : BitVec 8) (v : BitVec 32) : Changes L R p (p.registerWrite o v) := by
  unfold registerWrite
  split
  · exact changes_controlWrite ..
  · exact Changes.modEngine .refl
  · exact Changes.modEngine .refl
  · exact changes_notifyWrite ..
  · exact Changes.modPosting .refl le_rfl id
  · exact Changes.modPosting .refl le_rfl id
  · exact .refl

end Part

end Sys2Proof.Machine
end

