-- ==== Sys2Proof/Laws/Timelines.lean ====
section
/-!
SUPPORT. The order and the counts of a channel timeline under placing, applying, deferring and releasing.
-/

namespace Sys2Proof.Machine

/-- A timeline in order of effective time (R5). -/
abbrev Ordered (tl : List Step) : Prop := tl.Pairwise fun a b => a.effective ≤ b.effective

theorem placeStep_perm (s : Step) (tl : List Step) : (placeStep s tl).Perm (s :: tl) := by
  induction tl with
  | nil => exact .refl _
  | cons x tl ih =>
    unfold placeStep
    split
    · exact (ih.cons x).trans (.swap s x tl)
    · exact .refl _

theorem placeStep_ordered (s : Step) {tl : List Step} (h : Ordered tl) : Ordered (placeStep s tl) := by
  induction tl with
  | nil => simp [placeStep, Ordered]
  | cons x tl ih =>
    obtain ⟨hx, ht⟩ := List.pairwise_cons.1 h
    unfold placeStep
    split
    · rename_i hle
      refine List.pairwise_cons.2 ⟨fun y hy => ?_, ih ht⟩
      rcases List.mem_cons.1 ((placeStep_perm s tl).mem_iff.1 hy) with rfl | hy
      · exact hle
      · exact hx y hy
    · rename_i hle
      refine List.pairwise_cons.2 ⟨fun y hy => ?_, h⟩
      rcases List.mem_cons.1 hy with rfl | hy
      · omega
      · exact le_trans (by omega) (hx y hy)

/-- In an ordered timeline a placed step stands behind the steps of its time (R13, R22). -/
theorem batchAt_placeStep (s : Step) {tl : List Step} (h : Ordered tl) (t : Nat) :
    batchAt t (placeStep s tl) = batchAt t tl ++ batchAt t [s] := by
  induction tl with
  | nil => simp [placeStep, batchAt]
  | cons x tl ih =>
    obtain ⟨hx, ht⟩ := List.pairwise_cons.1 h
    unfold placeStep
    split
    · have := ih ht
      simp only [batchAt] at this ⊢
      by_cases hxt : (x.effective == t) = true
      · simp [List.filter_cons, hxt, this]
      · simp [List.filter_cons, hxt, this]
    · rename_i hle
      by_cases hst : s.effective = t
      · have : batchAt t (x :: tl) = [] := by
          simp only [batchAt, List.filter_eq_nil_iff, beq_iff_eq]
          intro y hy
          rcases List.mem_cons.1 hy with rfl | hy
          · omega
          · have := hx y hy; omega
        simp only [batchAt] at this ⊢
        simp [this, hst]
      · simp [batchAt, List.filter_cons, hst]

theorem placeSteps_ordered (l : List Step) {tl : List Step} (h : Ordered tl) : Ordered (placeSteps l tl) := by
  induction l generalizing tl with
  | nil => exact h
  | cons s l ih => exact ih (placeStep_ordered s h)

theorem batchAt_placeSteps (l : List Step) {tl : List Step} (h : Ordered tl) (t : Nat) :
    batchAt t (placeSteps l tl) = batchAt t tl ++ batchAt t l := by
  induction l generalizing tl with
  | nil => simp [placeSteps, batchAt]
  | cons s l ih =>
    have := ih (placeStep_ordered s h)
    simp only [placeSteps, List.foldl_cons] at this ⊢
    rw [this, batchAt_placeStep s h]
    simp only [batchAt, List.append_assoc, ← List.filter_append, List.singleton_append]

theorem placeSteps_perm (l tl : List Step) : (placeSteps l tl).Perm (l ++ tl) := by
  induction l generalizing tl with
  | nil => exact .refl _
  | cons s l ih =>
    refine (ih (placeStep s tl)).trans ?_
    refine ((placeStep_perm s tl).append_left l).trans ?_
    exact List.perm_middle

/-- Steps with their bodies and times changed, and some gone, keep no more than they were of each origin. -/
theorem filterMap_origin (f : Step → Option Step) (hf : ∀ s s', f s = some s' → s'.origin = s.origin) (l : List Step)
    (q : Fin 8) :
    ((l.filterMap f).filter fun s => s.origin == q).length ≤ (l.filter fun s => s.origin == q).length := by
  induction l with
  | nil => exact le_rfl
  | cons s l ih =>
    rw [List.filterMap_cons]
    split
    · refine ih.trans ?_
      rw [List.filter_cons]
      split
      · exact Nat.le_succ _
      · exact le_rfl
    · rename_i s' hs
      have := hf _ _ hs
      rw [List.filter_cons, List.filter_cons, this]
      split
      · exact Nat.succ_le_succ ih
      · exact ih

theorem afterApplied_origin (s s' : Step) (h : s.afterApplied = some s') : s'.origin = s.origin := by
  unfold Step.afterApplied at h
  split at h
  · cases h
  · split at h
    · cases h
    · cases h; rfl

theorem carriedStep_origin (r : Nat) (s s' : Step) (h : s.carriedStep r = some s') : s'.origin = s.origin := by
  unfold Step.carriedStep Step.releaseFate at h
  split at h
  · rename_i heq
    split at heq
    · cases heq
    · split at heq
      · cases heq
      · split at heq
        · cases heq
        · cases heq; cases h; rfl
  · cases h

namespace Part

/-- The general form: what leaves part of a timeline in place and puts changed steps of the rest back. -/
theorem Thins.place (tl keep : List Step) (moved : List Step) (hk : keep.Sublist tl)
    (total : moved.length + keep.length ≤ tl.length)
    (origin : ∀ q : Fin 8, (moved.filter fun s => s.origin == q).length + (keep.filter fun s => s.origin == q).length ≤
      (tl.filter fun s => s.origin == q).length) : Thins tl (placeSteps moved keep) where
  ordered h := placeSteps_ordered _ (h.sublist hk)
  total := by rw [(placeSteps_perm _ _).length_eq, List.length_append]; exact total
  origin q := by
    rw [((placeSteps_perm moved keep).filter _).length_eq, List.filter_append, List.length_append]
    exact origin q

theorem length_split (tl : List Step) (f g : Step → Bool) (h : ∀ s, !(f s && g s)) :
    (tl.filter f).length + (tl.filter g).length ≤ tl.length := by
  induction tl with
  | nil => simp
  | cons s tl ih =>
    have := h s
    simp only [List.filter_cons, List.length_cons]
    cases hf : f s <;> cases hg : g s <;> simp_all <;> omega

theorem origin_split (tl : List Step) (f g : Step → Bool) (h : ∀ s, !(f s && g s)) (q : Fin 8) :
    ((tl.filter f).filter fun s => s.origin == q).length + ((tl.filter g).filter fun s => s.origin == q).length ≤
      (tl.filter fun s => s.origin == q).length := by
  have := length_split (tl.filter fun s => s.origin == q) f g h
  simpa [List.filter_filter, Bool.and_comm] using this

theorem Thins.applyBatch (t : Nat) (tl : List Step) : Thins tl (applyBatch t tl) := by
  have hs : ∀ s : Step, !((s.effective == t) && (s.effective != t)) := fun s => by cases h : s.effective == t <;> simp_all
  refine Thins.place _ _ _ List.filter_sublist ?_ fun q => ?_
  · exact (Nat.add_le_add_right (List.length_filterMap_le _ _) _).trans (length_split tl _ _ hs)
  · exact (Nat.add_le_add_right (filterMap_origin _ afterApplied_origin _ q) _).trans (origin_split tl _ _ hs q)

theorem Thins.releaseTimeline (r : Nat) (tl : List Step) : Thins tl (releaseTimeline r tl) := by
  have hc : ∀ l : List Step, l.filterMap (Step.carriedStep r) =
      (l.filter fun s => (s.carriedStep r).isSome).filterMap (Step.carriedStep r) := fun l => by
    rw [List.filterMap_filter]
    congr 1
    funext s
    cases h : s.carriedStep r <;> simp
  have hs : ∀ s : Step, !((s.carriedStep r).isSome && s.releaseFate r == .kept) := fun s => by
    unfold Step.carriedStep
    cases h : s.releaseFate r <;> simp
  unfold Machine.releaseTimeline
  rw [hc]
  refine Thins.place _ _ _ List.filter_sublist ?_ fun q => ?_
  · exact (Nat.add_le_add_right (List.length_filterMap_le _ _) _).trans (length_split tl _ _ hs)
  · exact (Nat.add_le_add_right (filterMap_origin _ (carriedStep_origin r) _ q) _).trans (origin_split tl _ _ hs q)

theorem Thins.deferBatch (d : Nat) (tl : List Step) : Thins tl (deferBatch d tl) where
  ordered h := by
    refine List.pairwise_map.2 (h.imp fun {a b} hab => ?_)
    split <;> split <;> (try dsimp only) <;> omega
  total := by simp [Machine.deferBatch]
  origin q := by
    simp only [Machine.deferBatch, List.filter_map, List.length_map]
    refine le_of_eq (congrArg List.length (congrArg (fun f => List.filter f tl) ?_))
    funext s
    simp only [Function.comp]
    split <;> rfl

end Part

end Sys2Proof.Machine
end

