-- ==== Sys2Proof/Laws/Commands.lean ====
section
/-!
SUPPORT. Every command but a hard reset is a sequence of changes.
-/

namespace Sys2Proof.Machine

/-! ### Counting over a vector with one element changed -/

theorem sum_map_set {α : Type} (g : α → Nat) (l : List α) (i : Nat) (h : i < l.length) (a : α) :
    ((l.set i a).map g).sum + g l[i] = (l.map g).sum + g a := by
  induction l generalizing i with
  | nil => simp at h
  | cons x l ih =>
    cases i with
    | zero => simp; omega
    | succ i =>
      have := ih i (by simpa using h)
      simp at this ⊢
      omega

namespace Part

variable {L R : Prop} {p p' : Part}

/-- A count over all timelines when one of them is replaced. -/
theorem sum_setTimeline (g : List Step → Nat) (p : Part) (c : Fin 32) (tl : List Step) :
    ((p.setTimeline c tl).timelines.toList.map g).sum + g (p.timeline c) = (p.timelines.toList.map g).sum + g tl := by
  have := sum_map_set g p.timelines.toList c.val (by simp) tl
  simpa [setTimeline, updateAt, timeline, Vector.toList_set] using this

theorem storedSteps_place (p : Part) (c : Fin 32) (s : Step) :
    (p.setTimeline c (placeStep s (p.timeline c))).storedSteps = p.storedSteps + 1 := by
  have := sum_setTimeline List.length p c (placeStep s (p.timeline c))
  rw [(placeStep_perm s _).length_eq] at this
  simp only [List.length_cons] at this
  unfold storedSteps
  omega

theorem inUse_place (p : Part) (c : Fin 32) (s : Step) (q : Fin 8) :
    (p.setTimeline c (placeStep s (p.timeline c))).inUse q = p.inUse q + if s.origin = q then 1 else 0 := by
  have := sum_setTimeline (fun tl => (tl.filter fun s => s.origin == q).length) p c (placeStep s (p.timeline c))
  rw [((placeStep_perm s _).filter _).length_eq] at this
  unfold inUse
  by_cases h : s.origin = q <;> simp [h] at this ⊢ <;> omega

/-! ### The Step Scheduler -/

theorem changes_placeAdmitted (may : R) (p : Part) (q : Fin 8) (h : Header) (link : Option (Fin 64))
    (steps : List RawStep) (slots : steps.length ≤ Config.storeSlots - p.storedSteps)
    (quota : p.inUse q + steps.length ≤ (p.queue q).quota) : Changes L R p (p.placeAdmitted q h link steps) := by
  induction steps generalizing p with
  | nil => exact .refl
  | cons r steps ih =>
    simp only [List.length_cons] at slots quota
    refine .trans (.single (.place p r.chan (r.admitted h p.now q link) may ?_ ?_)) (ih _ ?_ ?_)
    · exact show p.inUse q < (p.queue q).quota by omega
    · omega
    · rw [storedSteps_place]; omega
    · rw [inUse_place, if_pos (show (r.admitted h p.now q link).origin = q from rfl)]
      exact show p.inUse q + 1 + steps.length ≤ (p.queue q).quota by omega

theorem changes_admission (may : R) (p : Part) (q : Fin 8) (h : Header) (steps : List RawStep)
    (room : p.hasRoom q steps.length = true) : Changes L R p (p.admission q h steps) := by
  simp only [hasRoom, Bool.and_eq_true, decide_eq_true_eq] at room
  unfold admission
  dsimp only
  split
  · exact Changes.setEntry (changes_placeAdmitted may p q h _ steps room.1 room.2)
  · exact Changes.complete (changes_placeAdmitted may p q h _ steps room.1 room.2)

theorem hasRoom_of_admissionRefusal (h : p.admissionRefusal q hd steps = none) : p.hasRoom q steps.length = true := by
  unfold admissionRefusal at h
  repeat' split at h
  all_goals first | contradiction | simp_all

theorem hasRoom_of_inlineRefusal (h : p.inlineRefusal q hd cmd = none) :
    p.hasRoom q (inlineSteps cmd).length = true := by
  unfold inlineRefusal at h
  split at h
  · exact hasRoom_of_admissionRefusal h
  · cases h

theorem changes_scheduleInline (may : R) (p : Part) (q : Fin 8) (h : Header) (cmd : Command) :
    Changes L R p (p.scheduleInline q h cmd) := by
  unfold scheduleInline
  split
  · exact changes_admission may _ _ _ _ (hasRoom_of_inlineRefusal ‹_›)
  · split
    · exact Changes.modQueue .refl fun _ => rfl
    · exact Changes.complete .refl

theorem changes_retry (may : R) (p : Part) (q : Fin 8) (held : Held) : Changes L R p (p.retry q held) := by
  have hu : Changes L R p (p.unpark q) := by
    unfold unpark
    exact Changes.modQueue .refl fun _ => rfl
  unfold retry
  split
  · have := hasRoom_of_inlineRefusal ‹_›
    refine .trans hu (changes_admission may _ _ _ _ ?_)
    simp only [hasRoom, Bool.and_eq_true, decide_eq_true_eq] at this ⊢
    refine ⟨this.1, le_of_le_of_eq this.2 ?_⟩
    simp [unpark, queue_modQueue]
  · split
    · exact Changes.modQueue .refl fun _ => rfl
    · exact Changes.complete hu

theorem changes_admitList (may : R) (p : Part) (q : Fin 8) (h : Header) (steps : List RawStep) :
    Changes L R p (p.admitList q h steps) := by
  unfold admitList
  split
  · exact changes_admission may _ _ _ _ (hasRoom_of_admissionRefusal ‹_›)
  · exact Changes.complete .refl

theorem changes_scheduleList (p : Part) (q : Fin 8) (h : Header) (b : ListBody) :
    Changes L R p (p.scheduleList q h b) := by
  unfold scheduleList
  dsimp only
  split
  · exact Changes.complete .refl
  · split
    · exact Changes.setPath (Changes.modMonitor .refl)
    · exact Changes.complete .refl

theorem changes_cancelTag (p : Part) (q : Fin 8) (h : Header) (tag : BitVec 16) :
    Changes L R p (p.cancelTag q h tag) := by
  unfold cancelTag
  exact Changes.completeWith (Changes.moves .refl (moves_dropOn _ _ _ _))

theorem changes_cancelChannel (p : Part) (q : Fin 8) (h : Header) (c : BitVec 8) :
    Changes L R p (p.cancelChannel q h c) := by
  unfold cancelChannel
  dsimp only
  split
  · exact Changes.complete .refl
  · split
    · exact Changes.complete .refl
    · exact Changes.completeWith (Changes.moves .refl (moves_dropWhere _ _ _ _))

theorem Changes.timeline (h : Changes L R p p') {c : Fin 32} {tl : List Step} (ht : Thins (p'.timeline c) tl) :
    Changes L R p (p'.setTimeline c tl) := h.tail (.move (.timeline _ c tl ht))

theorem changes_actOn (p : Part) (c : Fin 32) (t : Nat) (a : Option Answer) : Changes L R p (p.actOn c t a) := by
  unfold actOn
  split
  · refine Changes.moves ?_ (moves_resolveAll _ _ _)
    exact Changes.timeline .refl (Thins.applyBatch t _)
  · exact Changes.moves .refl (moves_dropWhere _ _ _ _)
  · exact Changes.timeline .refl (Thins.deferBatch _ _)
  · exact .refl

theorem changes_takeBatch (p : Part) (c : Fin 32) (t : Nat) (w : Bool) : Changes L R p (p.takeBatch c t w) := by
  unfold takeBatch
  dsimp only
  refine Changes.moves ?_ (moves_checkReported _ _)
  split
  · refine Changes.moves ?_ (moves_contention _ _ _ _ _ _ _)
    refine .trans ?_ (changes_actOn _ _ _ _)
    refine .trans ?_ (changes_actOn _ _ _ _)
    exact Changes.moves .refl (moves_batch _ _ _ _)
  · refine .trans ?_ (changes_actOn _ _ _ _)
    refine .trans ?_ (changes_actOn _ _ _ _)
    exact Changes.moves .refl (moves_batch _ _ _ _)

theorem changes_dueTimeEvent (c : Fin 32) (w : Bool) (h : p.dueTimeEvent c w = some p') : Changes L R p p' := by
  unfold dueTimeEvent at h
  split at h
  · cases h
  · split at h
    · cases h; exact changes_takeBatch ..
    · cases h

/-! ### The Output Stage -/

theorem moves_requestIdle {W : Fin 4 → Prop} (p : Part) (c : Fin 32) (idle : IdleLevel) :
    Moves W p (p.requestIdle c idle) := by
  unfold requestIdle
  split
  · exact .refl
  · exact moves_requestOne _ _ _

theorem changes_configureChannel (p : Part) (q : Fin 8) (h : Header) (b : ChannelBody) :
    Changes L R p (p.configureChannel q h b) := by
  unfold configureChannel
  dsimp only
  split
  · exact Changes.complete .refl
  · refine Changes.completeWith ?_
    refine Changes.moves ?_ (moves_requestIdle _ _ _)
    exact Changes.channel .refl fun _ => rfl

theorem configuredPair_enabled (p : Part) (k : Fin 16) (b : PairBody) :
    (p.configuredPair k b).enabled = b.enable.getLsbD 0 := by
  unfold configuredPair
  dsimp only
  split <;> rfl

theorem configuredPair_polarity (p : Part) (k : Fin 16) (b : PairBody) :
    (p.configuredPair k b).polarity = (Polarity.ofCode b.polarity.toNat).getD .activeHigh := by
  unfold configuredPair
  dsimp only
  split <;> rfl

/-- What the checks of CONFIGURE PAIR leave true of an enabled pair (R46). -/
theorem configurePairRefusal_none (q : Fin 8) (b : PairBody) (h : p.configurePairRefusal q b = none)
    (he : b.enable.getLsbD 0 = true) :
    let k := Fin.ofNat 16 b.pair.toNat
    let active := ((Polarity.ofCode b.polarity.toNat).getD .activeHigh).activeLevel
    ¬((p.channel (channelOf k .lower)).level = active ∧ (p.channel (channelOf k .upper)).level = active) ∧
      p.domainOf (channelOf k .lower) = p.domainOf (channelOf k .upper) := by
  unfold configurePairRefusal at h
  split at h
  · contradiction
  dsimp only at h ⊢
  split at h
  · contradiction
  rename_i polarity hp
  rw [hp]
  split at h; contradiction
  split at h; contradiction
  split at h; contradiction
  split at h; contradiction
  split at h; contradiction
  split at h; contradiction
  split at h
  · rename_i hn; rw [he] at hn; contradiction
  split at h; contradiction
  rename_i h1
  split at h; contradiction
  split at h; contradiction
  rename_i h2
  exact ⟨by simpa using h1, not_not.1 h2⟩

theorem changes_configurePair (p : Part) (q : Fin 8) (h : Header) (b : PairBody) :
    Changes L R p (p.configurePair q h b) := by
  unfold configurePair
  dsimp only
  split
  · exact Changes.complete .refl
  · rename_i hr
    have key := fun he => configurePairRefusal_none q b hr he
    refine Changes.completeWith (.single (.pair p _ _ ?_ ?_))
    · simp only [Pair.isActive, configuredPair_enabled, configuredPair_polarity, Bool.and_eq_true, beq_iff_eq]
      rintro ⟨⟨he, h1⟩, -, h2⟩
      exact (key he).1 ⟨h1, h2⟩
    · rw [configuredPair_enabled]
      exact fun he => (key he).2

theorem changes_queryChannel (p : Part) (q : Fin 8) (h : Header) (c : BitVec 8) :
    Changes L R p (p.queryChannel q h c) := by
  unfold queryChannel
  dsimp only
  split
  · exact Changes.complete .refl
  · split
    · exact Changes.complete .refl
    · refine Changes.completeWith ?_
      exact .single (.frame rfl rfl rfl (fun _ => rfl) le_rfl id)

theorem changes_deadTimeExpiry (k : Fin 16) (h : p.deadTimeExpiry k = some p') : Changes L R p p' := by
  unfold deadTimeExpiry at h
  dsimp only at h
  split at h
  · cases h
    refine Changes.moves (Changes.moves (.single (.move (.expired p k))) (moves_noteReports _ _ _))
      (moves_checkReported _ _)
  · cases h

/-! ### The Domain Unit -/

theorem and_zero_of_and_bne (a b : BitVec 32) (h : ¬(a &&& b != 0) = true) : a &&& b = 0 := by simpa using h

/-- What the checks of CONFIGURE DOMAIN leave true of the member set (R86). -/
theorem configureDomainRefusal_none (q : Fin 8) (b : DomainBody) (h : p.configureDomainRefusal q b = none) :
    (∀ e, e ≠ Fin.ofNat 8 b.domain.toNat → (p.domain e).members &&& b.members = 0) ∧
      ∀ k, (p.pair k).enabled = true →
        b.members.getLsbD (channelOf k .lower).val = b.members.getLsbD (channelOf k .upper).val := by
  unfold configureDomainRefusal at h
  dsimp only at h
  split at h; contradiction
  split at h; contradiction
  split at h; contradiction
  split at h; contradiction
  split at h; contradiction
  rename_i h1
  split at h; contradiction
  rename_i h2
  simp only [List.any_eq_true, List.mem_finRange, true_and, not_exists, Bool.and_eq_true, bne_iff_ne, ne_eq, not_and,
    not_not] at h1 h2
  exact ⟨h1, h2⟩

theorem changes_configureDomain (p : Part) (q : Fin 8) (h : Header) (b : DomainBody) :
    Changes L R p (p.configureDomain q h b) := by
  unfold configureDomain
  split
  · exact Changes.complete .refl
  · obtain ⟨h1, h2⟩ := configureDomainRefusal_none q b ‹_›
    exact Changes.complete (.single (.members p _ _ b.members (fun _ => rfl) h1 h2))

theorem changes_loadSafeSequence (p : Part) (q : Fin 8) (h : Header) (b : SequenceBody) :
    Changes L R p (p.loadSafeSequence q h b) := by
  unfold loadSafeSequence
  split
  · exact Changes.complete .refl
  · refine Changes.complete ?_
    exact Changes.modDomain .refl fun _ => rfl

theorem changes_armDomain (p : Part) (q : Fin 8) (h : Header) (d : BitVec 8) : Changes L R p (p.armDomain q h d) := by
  unfold armDomain
  dsimp only
  repeat' split
  all_goals
    refine Changes.complete ?_
    first
      | exact .refl
      | exact Changes.modDomain .refl fun _ => rfl

theorem changes_disarmDomain (p : Part) (q : Fin 8) (h : Header) (d : BitVec 8) :
    Changes L R p (p.disarmDomain q h d) := by
  unfold disarmDomain
  dsimp only
  repeat' split
  all_goals
    refine Changes.complete ?_
    first
      | exact .refl
      | exact Changes.modDomain .refl fun _ => rfl

theorem changes_tripDomain (p : Part) (q : Fin 8) (h : Header) (d : BitVec 8) :
    Changes L R p (p.tripDomain q h d) := by
  unfold tripDomain
  dsimp only
  repeat' split
  all_goals
    first
      | exact Changes.complete .refl
      | exact Changes.completeWith (Changes.moves .refl (moves_offer _ _ _))

theorem changes_releaseChannel (p : Part) (c : Fin 32) : Changes L R p (p.releaseChannel c) := by
  unfold releaseChannel
  dsimp only
  refine Changes.moves ?_ (moves_resolveAll _ _ _)
  exact Changes.timeline .refl (Thins.releaseTimeline _ _)

theorem changes_release (p : Part) (q : Fin 8) (h : Header) (d : Fin 8) : Changes L R p (p.release q h d) := by
  unfold release
  dsimp only
  refine Changes.complete ?_
  refine Changes.notify ?_
  refine .trans ?_ (Changes.foldl _ (fun p c => Changes.moves .refl (moves_unforceChannel p _ c)) _ _)
  refine Changes.modDomain ?_ fun _ => rfl
  split
  · exact Changes.foldl _ changes_releaseChannel _ _
  · exact .refl

theorem changes_releaseDomain (p : Part) (q : Fin 8) (h : Header) (d : BitVec 8) :
    Changes L R p (p.releaseDomain q h d) := by
  unfold releaseDomain
  dsimp only
  repeat' split
  all_goals
    first
      | exact Changes.complete .refl
      | exact changes_release _ _ _ _

theorem changes_queryDomain (p : Part) (q : Fin 8) (h : Header) (d : BitVec 8) :
    Changes L R p (p.queryDomain q h d) := by
  unfold queryDomain
  split
  · exact Changes.complete .refl
  · exact Changes.completeWith .refl

theorem changes_safeSequenceEntryDue (d : Fin 8) (n : Nat) (h : p.safeSequenceEntryDue d n = some p') :
    Changes L R p p' := by
  unfold safeSequenceEntryDue at h
  dsimp only at h
  split at h
  · cases h
  · split at h
    · cases h
      exact Changes.moves (Changes.moves .refl (moves_makeEntry _ _ _ _)) (moves_checkSafe _ _)
    · cases h

/-! ### The Fault Input Block -/

theorem changes_configureFaultInput (p : Part) (q : Fin 8) (h : Header) (b : InputBody) :
    Changes L R p (p.configureFaultInput q h b) := by
  unfold configureFaultInput
  dsimp only
  repeat' split
  all_goals
    refine Changes.complete ?_
    first
      | exact .refl
      | exact Changes.modInput .refl

theorem changes_clearFaultLatch (p : Part) (q : Fin 8) (h : Header) (n : BitVec 8) :
    Changes L R p (p.clearFaultLatch q h n) := by
  unfold clearFaultLatch
  dsimp only
  repeat' split
  all_goals
    refine Changes.complete ?_
    first
      | exact .refl
      | exact Changes.modInput .refl

theorem changes_activate (p : Part) (n : Fin 16) : Changes L R p (p.activate n) := by
  unfold activate
  dsimp only
  refine Changes.moves ?_ (moves_offerAll _ _)
  split
  · exact Changes.notify .refl
  · exact .refl

theorem changes_sampleEvent (n : Fin 16) (b : Bool) (h : p.sampleEvent n b = some p') : Changes L R p p' := by
  unfold sampleEvent at h
  dsimp only at h
  split at h
  · cases h
    split
    · exact .trans (Changes.modInput .refl) (changes_activate _ _)
    · exact Changes.modInput .refl
  · cases h

/-! ### The Timebase and Clock Supervisor -/

theorem changes_switchSource (p : Part) (s : Source) (r : SourceReason) (a : SupervisorState) :
    Changes L R p (p.switchSource s r a) := by
  unfold switchSource
  refine Changes.notify ?_
  exact Changes.modClock .refl

theorem changes_notifyFailed (p : Part) : Changes L R p p.notifyFailed := Changes.notify .refl

theorem changes_failSupervisor (p : Part) : Changes L R p p.failSupervisor := by
  have h : Changes L R p (p.modSupervisor fun s => { s with state := .failed, window := none }).notifyFailed :=
    .trans (Changes.modSupervisor .refl) (changes_notifyFailed _)
  unfold failSupervisor
  dsimp only
  refine Changes.moves ?_ (moves_offerAll _ _)
  split
  · exact .trans h (changes_switchSource _ _ _ _)
  · exact h

theorem changes_takeVerdict (p : Part) (v : Verdict) (n : Nat) (w : SupervisorWindow) :
    Changes L R p (p.takeVerdict v n w) := by
  unfold takeVerdict
  dsimp only
  split
  · exact Changes.modSupervisor .refl
  · generalize (if v = .inRange then 0 else p.clock.supervisor.bad + 1) = bad
    split
    · exact .trans (Changes.modSupervisor .refl) (changes_failSupervisor _)
    · exact Changes.modSupervisor .refl
  · exact .refl
  · exact .refl

theorem changes_refEdge (h : p.refEdge = some p') : Changes L R p p' := by
  unfold refEdge at h
  dsimp only at h
  repeat' split at h
  all_goals
    first
      | contradiction
      | (cases h; first | exact Changes.modSupervisor .refl | exact changes_takeVerdict _ _ _ _)

theorem changes_windowEnd (h : p.windowEnd = some p') : Changes L R p p' := by
  unfold windowEnd at h
  dsimp only at h
  repeat' split at h
  all_goals
    first
      | contradiction
      | (cases h; exact changes_takeVerdict _ _ _ _)

theorem changes_referenceTimeout (h : p.referenceTimeout = some p') : Changes L R p p' := by
  unfold referenceTimeout at h
  dsimp only at h
  repeat' split at h
  all_goals
    first
      | contradiction
      | (cases h; exact changes_takeVerdict _ _ _ _)

theorem changes_supervisorStopped (p : Part) : Changes L R p p.supervisorStopped := by
  unfold supervisorStopped
  dsimp only
  split
  · refine Changes.moves ?_ (moves_offerAll _ _)
    exact .trans (Changes.modSupervisor .refl) (changes_notifyFailed _)
  · exact .refl

theorem changes_primaryStop (h : p.primaryStop = some p') : Changes L R p p' := by
  unfold primaryStop at h
  dsimp only at h
  split at h
  · cases h
    refine .trans ?_ (changes_supervisorStopped _)
    refine .trans ?_ (changes_switchSource _ _ _ _)
    unfold detectorReached
    exact Changes.modClock .refl
  · cases h

theorem changes_primaryIndicationAbsent (h : p.primaryIndicationAbsent = some p') : Changes L R p p' := by
  unfold primaryIndicationAbsent at h
  split at h
  · cases h
    unfold detectorReached
    exact Changes.modClock .refl
  · cases h

theorem changes_configureSupervisor (p : Part) (q : Fin 8) (h : Header) (b : SupervisorBody) :
    Changes L R p (p.configureSupervisor q h b) := by
  unfold configureSupervisor
  repeat' split
  all_goals
    refine Changes.complete ?_
    first
      | exact .refl
      | exact Changes.modSupervisor .refl

theorem changes_restorePrimaryClock (p : Part) (q : Fin 8) (h : Header) :
    Changes L R p (p.restorePrimaryClock q h) := by
  unfold restorePrimaryClock
  dsimp only
  split
  · exact Changes.complete .refl
  split
  · exact Changes.complete .refl
  refine Changes.complete ?_
  generalize hp : (if p.clock.source = Source.backup then _ else p) = p1
  have h1 : Changes L R p p1 := by
    subst hp
    split
    · exact changes_switchSource _ _ _ _
    · exact .refl
  split
  · exact h1
  · exact Changes.modSupervisor h1

theorem changes_tick (p : Part) : Changes L R p p.tick := .single (.frame rfl rfl rfl (fun _ => rfl) le_rfl id)

/-- Where no CONTENTION pulse waits and Engine Control has nothing to do, TIMEBASE TICK is the tick. -/
theorem timebaseTick_settled (hs : p.settled = true) (h : ∀ d, (p.domain d).contentionWaits = false) :
    p.timebaseTick = p.tick := by
  unfold timebaseTick
  rw [endWaits_none h, settle_settled hs]

theorem changes_timebaseTick (p : Part) : Changes L R p p.timebaseTick := by
  unfold timebaseTick
  exact ((Changes.moves .refl (moves_endWaits p)).trans (changes_settle _)).trans (changes_tick _)

/-! ### Arrivals -/

theorem changes_owner (may : R) (p : Part) (q : Fin 8) (h : Header) (c : Command) : Changes L R p (p.owner q h c) := by
  unfold owner
  split
  · exact changes_scheduleInline may _ _ _ _
  · exact changes_scheduleInline may _ _ _ _
  · exact changes_scheduleList _ _ _ _
  · exact changes_cancelTag _ _ _ _
  · exact changes_cancelChannel _ _ _ _
  · exact changes_configureChannel _ _ _ _
  · exact changes_configurePair _ _ _ _
  · exact changes_queryChannel _ _ _ _
  · exact changes_configureDomain _ _ _ _
  · exact changes_loadSafeSequence _ _ _ _
  · exact changes_armDomain _ _ _ _
  · exact changes_disarmDomain _ _ _ _
  · exact changes_tripDomain _ _ _ _
  · exact changes_releaseDomain _ _ _ _
  · exact changes_queryDomain _ _ _ _
  · exact changes_configureFaultInput _ _ _ _
  · exact changes_clearFaultLatch _ _ _ _
  · exact changes_configureSupervisor _ _ _ _
  · exact changes_restorePrimaryClock _ _ _
  · exact Changes.complete .refl
  · exact Changes.complete .refl

theorem changes_process (may : R) (p : Part) (q : Fin 8) (h : Header) (c : Command) :
    Changes L R p (p.process q h c) := by
  unfold process
  split
  · exact Changes.complete .refl
  · exact changes_owner may _ _ _ _

theorem changes_freePath (p : Part) : Changes L R p p.freePath := by
  unfold freePath
  exact Changes.setPath (Changes.modMonitor .refl)

theorem changes_returnCredit (p : Part) (n : Fin 4) : Changes L R p (p.returnCredit n) := by
  unfold returnCredit
  exact Changes.modCq .refl

/-- Whether the next command may place steps: the engine is RUNNING, or a live read occupies the command path. -/
def mayPlace (p : Part) : Prop := p.engine.state = .running ∨ p.command.path ≠ discardPath p.command.path

theorem changes_arrival (h : Header) (c : Command) (hp : p.arrival h c = some p') : Changes L p.mayPlace p p' := by
  unfold arrival at hp
  split at hp
  · rename_i q d hq
    split at hp
    · cases hp
      exact .trans (changes_freePath _) (changes_returnCredit _ _)
    · cases hp
      refine .trans ?_ (changes_process (.inr ?_) _ _ _ _)
      · unfold advanceHead
        exact .trans (changes_freePath _) (Changes.modQueue .refl fun _ => rfl)
      · rw [hq]; simp_all [discardPath]
  · cases hp

theorem changes_recordArrives (data : List Byte) (hp : p.recordArrives data = some p') :
    Changes L p.mayPlace p p' := by
  unfold recordArrives at hp
  split at hp
  · exact changes_arrival _ _ hp
  · cases hp

theorem changes_listArrives (data : List Byte) (hp : p.listArrives data = some p') :
    Changes L p.mayPlace p p' := by
  unfold listArrives at hp
  split at hp
  · rename_i q h d a hq _
    split at hp
    · split at hp
      · cases hp
        exact changes_freePath _
      · cases hp
        refine .trans (changes_freePath _) (changes_admitList (.inr ?_) _ _ _ _)
        rw [hq]; simp_all [discardPath]
    · cases hp
  · cases hp

/-! ### Queues and postings -/

theorem changes_fetchFault (p : Part) (q : Fin 8) (f : AccessFault) : Changes L R p (p.fetchFault q f) := by
  unfold fetchFault
  exact .trans (changes_returnCredit _ _) (changes_queueError _ _ _ _ _)

theorem changes_fetchGrant (hp : p.fetchGrant = some p') : Changes L p.mayPlace p p' := by
  unfold fetchGrant at hp
  split at hp
  · rename_i hs
    obtain ⟨q, -, rfl⟩ := Option.map_eq_some_iff.1 hp
    have hm : Changes L p.mayPlace p (p.movePointer q) := by
      unfold movePointer
      exact Changes.modCommand .refl fun q' => by split <;> rfl
    unfold grantTo
    dsimp only
    split
    · exact hm.trans (changes_retry (.inl hs.1) _ _ _)
    · refine hm.trans ?_
      unfold issueFetch
      dsimp only
      split
      · exact Changes.setPath (Changes.modMonitor (Changes.modCq .refl))
      · exact .trans (Changes.modCq .refl) (changes_fetchFault _ _ _)
  · cases hp

theorem changes_commandReadFault (p : Part) (f : AccessFault) : Changes L R p (p.commandReadFault f) := by
  unfold commandReadFault
  split
  · exact .refl
  · split
    · exact .trans (changes_freePath _) (changes_returnCredit _ _)
    · exact .trans (changes_freePath _) (changes_fetchFault _ _ _)
  · split
    · exact changes_freePath _
    · exact Changes.complete (changes_freePath _)

theorem changes_endWrite (p : Part) : Changes L R p p.endWrite := by
  unfold endWrite
  exact Changes.modPosting (Changes.modMonitor .refl) le_rfl id

theorem changes_popWriteList (p : Part) : Changes L R p p.popWriteList := by
  unfold popWriteList
  exact Changes.modPosting .refl le_rfl id

theorem changes_postCompletion (p : Part) (n : Fin 4) : Changes L R p (p.postCompletion n) := by
  unfold postCompletion
  dsimp only
  split
  · exact Changes.setCause (Changes.modCq (changes_popWriteList _))
  · exact Changes.modCq (changes_popWriteList _)

theorem changes_postNotice (p : Part) : Changes L R p p.postNotice := by
  unfold postNotice
  refine Changes.setCause ?_
  exact Changes.modRing (changes_popWriteList _) le_rfl id

theorem changes_completionWriteAnswered (hp : p.completionWriteAnswered = some p') : Changes L R p p' := by
  unfold completionWriteAnswered at hp
  repeat' split at hp
  all_goals first | contradiction | (cases hp; refine .trans ?_ (changes_issueNext _))
  · exact changes_endWrite _
  · exact .trans (changes_endWrite _) (changes_postCompletion _ _)

theorem changes_noticeWriteAnswered (hp : p.noticeWriteAnswered = some p') : Changes L R p p' := by
  unfold noticeWriteAnswered at hp
  repeat' split at hp
  all_goals first | contradiction | (cases hp; refine .trans ?_ (changes_issueNext _))
  · exact changes_endWrite _
  · exact .trans (changes_endWrite _) (changes_postNotice _)

theorem changes_writeFault (p : Part) (a : Access) (f : AccessFault) : Changes L R p (p.writeFault a f) := by
  unfold writeFault
  dsimp only
  split
  · exact .trans (changes_endWrite _) (changes_issueNext _)
  · exact Changes.modPosting (changes_endWrite _) le_rfl id

theorem changes_holdoffExpiry (n : Fin 4) (hp : p.holdoffExpiry n = some p') : Changes L R p p' := by
  unfold holdoffExpiry at hp
  dsimp only at hp
  split at hp
  · cases hp
    split
    · exact Changes.setCause (Changes.modCq .refl)
    · exact Changes.modCq .refl
  · cases hp

/-! ### Engine Control -/

theorem giveBack_pending (r : NoticeRing) (x : Option (Nat × Nat)) :
    (giveBack r x).pending.length = r.pending.length := by
  cases x <;> rfl

theorem giveBack_lost (r : NoticeRing) (x : Option (Nat × Nat)) (h : r.lost ≤ Config.lostLimit) :
    (giveBack r x).lost ≤ Config.lostLimit := by
  cases x with
  | none => exact h
  | some x => exact Nat.min_le_left _ _

theorem changes_loadFailed (p : Part) (f : LoadFault) : Changes L R p (p.loadFailed f) := by
  unfold loadFailed
  refine Changes.setCause (Changes.modEngine ?_)
  unfold endBlockRead
  refine Changes.modPosting (Changes.modMonitor .refl) ?_ ?_
  · exact (giveBack_pending _ _).le
  · exact giveBack_lost _ _

theorem changes_loadBlock (load : L) (p : Part) (b : Block) : Changes L R p (p.loadBlock b) := by
  unfold loadBlock unforceEngine
  dsimp only
  refine Changes.modEngine ?_
  refine .trans ?_ (Changes.foldl _ (fun p c => Changes.moves .refl (moves_unforceChannel p _ c)) _ _)
  refine .single (.plain (fun _ => rfl) (fun _ => ⟨rfl, rfl⟩) (fun _ => Thins.refl _) (.inl fun _ => rfl) (.inl load) ?_ ?_)
  · exact Nat.zero_le _
  · exact fun _ => Nat.zero_le _

theorem changes_configurationBlockArrives (load : L) (data : List Byte)
    (hp : p.configurationBlockArrives data = some p') : Changes L R p p' := by
  unfold configurationBlockArrives at hp
  dsimp only at hp
  split at hp
  · split at hp
    · cases hp
      exact .trans (Changes.modMonitor .refl) (changes_loadBlock load _ _)
    · cases hp
      exact changes_loadFailed _ _
  · cases hp

theorem changes_accessFault (p : Part) (o : AccessOwner) (a : Access) (f : AccessFault) :
    Changes L R p (p.accessFault o a f) := by
  unfold accessFault
  split
  · exact changes_commandReadFault _ _
  · exact changes_commandReadFault _ _
  · exact changes_writeFault _ _ _
  · exact changes_loadFailed _ _

theorem changes_accessTimeout (o : AccessOwner) (hp : p.accessTimeout o = some p') : Changes L R p p' := by
  unfold accessTimeout at hp
  repeat' split at hp
  all_goals first | contradiction | (cases hp; exact changes_accessFault _ _ _ _)

theorem changes_busErrorResponse (o : AccessOwner) (hp : p.busErrorResponse o = some p') : Changes L R p p' := by
  unfold busErrorResponse at hp
  repeat' split at hp
  all_goals first | contradiction | (cases hp; exact changes_accessFault _ _ _ _)

end Part

/-! ## Every command -/

theorem changes_event {L R : Prop} {f : Part → Option Part} {s s' : State}
    (hf : ∀ p', f s.part = some p' → Part.Changes L R s.part p') (h : event f s = .next s') :
    Part.Changes L R s.part s'.part := by
  unfold event at h
  split at h
  · cases h; exact .refl
  · split at h
    · cases h; exact .refl
    · cases h
      exact (hf _ ‹_›).trans (Part.changes_settle _)

/-- Whether a command is the arrival of a Configuration Block, which alone may load new quotas. -/
def loads (i : Instr) : Prop := ∃ data, i = .configurationBlockArrives data

/-- The effect of each command on the part, before what Engine Control does at the end of the event; `none` where the event
cannot occur. The two RESETn commands are no events of this kind. -/
def effect : Instr → Part → Option Part
  | .schedule h b => Part.arrival h (.schedule b)
  | .scheduleRepeating h b => Part.arrival h (.scheduleRepeating b)
  | .scheduleList h b => Part.arrival h (.scheduleList b)
  | .cancelTag h tag => Part.arrival h (.cancelTag tag)
  | .cancelChannel h channel => Part.arrival h (.cancelChannel channel)
  | .configureChannel h b => Part.arrival h (.configureChannel b)
  | .configurePair h b => Part.arrival h (.configurePair b)
  | .queryChannel h channel => Part.arrival h (.queryChannel channel)
  | .configureDomain h b => Part.arrival h (.configureDomain b)
  | .loadSafeSequence h b => Part.arrival h (.loadSafeSequence b)
  | .armDomain h domain => Part.arrival h (.armDomain domain)
  | .disarmDomain h domain => Part.arrival h (.disarmDomain domain)
  | .tripDomain h domain => Part.arrival h (.tripDomain domain)
  | .releaseDomain h domain => Part.arrival h (.releaseDomain domain)
  | .queryDomain h domain => Part.arrival h (.queryDomain domain)
  | .configureFaultInput h b => Part.arrival h (.configureFaultInput b)
  | .clearFaultLatch h input => Part.arrival h (.clearFaultLatch input)
  | .configureSupervisor h b => Part.arrival h (.configureSupervisor b)
  | .restorePrimaryClock h => Part.arrival h .restorePrimaryClock
  | .readTime h => Part.arrival h .readTime
  | .start => fun p => some (p.controlWrite 1)
  | .halt => fun p => some (p.controlWrite 2)
  | .softReset => fun p => some (p.controlWrite 3)
  | .unknownControlOperation operation => fun p => some (p.controlWrite operation)
  | .postTail target index => fun p => some (p.notifyWrite 1 target index)
  | .resetQueue target => fun p => some (p.notifyWrite 3 target 0)
  | .consume target index => fun p => some (p.notifyWrite 2 target index)
  | .unrecognisedNotifyOperation operation target index => fun p => some (p.notifyWrite operation target index)
  | .intCauseWrite value => fun p => some (p.intCauseWrite value)
  | .intEnableWrite value => fun p => some (p.intEnableWrite value)
  | .registerWrite offset value => fun p => some (p.registerWrite offset value)
  | .hardReset => some
  | .resetnNegated => some
  | .dueTimeEvent due => Part.dueTimeEvent due.channel due.tripWaits
  | .deadTimeExpiry pair => Part.deadTimeExpiry pair
  | .safeSequenceEntryDue domain entry => Part.safeSequenceEntryDue domain entry
  | .sampleEvent input pinHigh => Part.sampleEvent input pinHigh
  | .primaryStop => Part.primaryStop
  | .windowEnd => Part.windowEnd
  | .referenceTimeout => Part.referenceTimeout
  | .holdoffExpiry queue => Part.holdoffExpiry queue
  | .fetchGrant => Part.fetchGrant
  | .recordArrives data => Part.recordArrives data
  | .listArrives data => Part.listArrives data
  | .completionWriteAnswered => Part.completionWriteAnswered
  | .noticeWriteAnswered => Part.noticeWriteAnswered
  | .configurationBlockArrives data => Part.configurationBlockArrives data
  | .accessTimeout owner => Part.accessTimeout owner
  | .busErrorResponse owner => Part.busErrorResponse owner
  | .lateAnswer => fun p => some p.lateAnswer
  | .timebaseTick => fun p => some p.timebaseTick
  | .refEdge => Part.refEdge
  | .tclkEdge => fun p => some p.tclkEdge
  | .primaryIndicationAbsent => Part.primaryIndicationAbsent

theorem exec_eq_event {i : Instr} (h : i ≠ .hardReset) (h' : i ≠ .resetnNegated) (s : State) :
    exec i s = event (effect i) s := by
  cases i
  case hardReset => exact absurd rfl h
  case resetnNegated => exact absurd rfl h'
  all_goals rfl

theorem effect_changes {i : Instr} {p p' : Part} (h : effect i p = some p') :
    Part.Changes (loads i) p.mayPlace p p' := by
  cases i
  case hardReset => cases h; exact .refl
  case resetnNegated => cases h; exact .refl
  case start => exact Option.some.inj h ▸ Part.changes_controlWrite _ _
  case halt => exact Option.some.inj h ▸ Part.changes_controlWrite _ _
  case softReset => exact Option.some.inj h ▸ Part.changes_controlWrite _ _
  case unknownControlOperation => exact Option.some.inj h ▸ Part.changes_controlWrite _ _
  case postTail => exact Option.some.inj h ▸ Part.changes_notifyWrite _ _ _ _
  case resetQueue => exact Option.some.inj h ▸ Part.changes_notifyWrite _ _ _ _
  case consume => exact Option.some.inj h ▸ Part.changes_notifyWrite _ _ _ _
  case unrecognisedNotifyOperation => exact Option.some.inj h ▸ Part.changes_notifyWrite _ _ _ _
  case intCauseWrite => cases h; exact Part.Changes.modPosting .refl le_rfl id
  case intEnableWrite => cases h; exact Part.Changes.modPosting .refl le_rfl id
  case registerWrite => exact Option.some.inj h ▸ Part.changes_registerWrite _ _ _
  case dueTimeEvent => exact Part.changes_dueTimeEvent _ _ h
  case deadTimeExpiry => exact Part.changes_deadTimeExpiry _ h
  case safeSequenceEntryDue => exact Part.changes_safeSequenceEntryDue _ _ h
  case sampleEvent => exact Part.changes_sampleEvent _ _ h
  case primaryStop => exact Part.changes_primaryStop h
  case windowEnd => exact Part.changes_windowEnd h
  case referenceTimeout => exact Part.changes_referenceTimeout h
  case holdoffExpiry => exact Part.changes_holdoffExpiry _ h
  case fetchGrant => exact Part.changes_fetchGrant h
  case recordArrives => exact Part.changes_recordArrives _ h
  case listArrives => exact Part.changes_listArrives _ h
  case completionWriteAnswered => exact Part.changes_completionWriteAnswered h
  case noticeWriteAnswered => exact Part.changes_noticeWriteAnswered h
  case configurationBlockArrives data => exact Part.changes_configurationBlockArrives ⟨data, rfl⟩ _ h
  case accessTimeout => exact Part.changes_accessTimeout _ h
  case busErrorResponse => exact Part.changes_busErrorResponse _ h
  case lateAnswer => cases h; exact .refl
  case timebaseTick => exact Option.some.inj h ▸ Part.changes_timebaseTick _
  case refEdge => exact Part.changes_refEdge h
  case tclkEdge => cases h; exact Part.Changes.modClock .refl
  case primaryIndicationAbsent => exact Part.changes_primaryIndicationAbsent h
  all_goals exact Part.changes_arrival _ _ h

/-- Every command but a hard reset is a sequence of changes. -/
theorem exec_changes {i : Instr} {s s' : State} (hi : i ≠ .hardReset) (h : exec i s = .next s') :
    Part.Changes (loads i) s.part.mayPlace s.part s'.part := by
  by_cases hn : i = .resetnNegated
  · subst hn
    cases h
    exact .single (.frame rfl rfl rfl (fun _ => rfl) le_rfl id)
  · rw [exec_eq_event hi hn] at h
    exact changes_event (fun _ hp => effect_changes hp) h

end Sys2Proof.Machine
end

