-- ==== Sys2Proof/Laws/Drops.lean ====
section
/-!
SUPPORT. What dropping steps leaves in the timelines.
-/

namespace Sys2Proof.Machine

namespace Part

theorem timeline_resolveAll (p : Part) (o : StepOutcome) (l : List Step) (c : Fin 32) :
    (p.resolveAll o l).timeline c = p.timeline c := by simp [timeline]

theorem timeline_dropWhere (p : Part) (which : Step → Bool) (cause : DropCause) (c c' : Fin 32) :
    (p.dropWhere which cause c).timeline c' =
      if c' = c then (p.timeline c).filter fun s => !which s else p.timeline c' := by
  unfold dropWhere
  rw [timeline_resolveAll, timeline_setTimeline]

/-- Steps dropped on several channels: the selected ones are gone from each channel of the list. -/
theorem timeline_dropOn (p : Part) (l : List (Fin 32)) (which : Step → Bool) (cause : DropCause) (c : Fin 32) :
    (p.dropOn l which cause).timeline c =
      if c ∈ l then (p.timeline c).filter fun s => !which s else p.timeline c := by
  unfold dropOn
  induction l generalizing p with
  | nil => rfl
  | cons x l ih =>
    rw [List.foldl_cons, ih, timeline_dropWhere]
    by_cases hx : c = x
    · subst hx
      by_cases hl : c ∈ l <;> simp [hl, List.filter_filter]
    · simp [hx]

end Part

end Sys2Proof.Machine
end

