-- ==== Sys2Proof/Laws/Guard.lean ====
section
/-!
SUPPORT. What the pair guard keeps: the configuration of the pair, and the law that its two channels are not both active.
-/

namespace Sys2Proof.Machine.PairView

/-- The two channels of the pair are not both active (R34). -/
def Safe (v : PairView) : Prop := ¬(v.pair.isActive v.lower.level = true ∧ v.pair.isActive v.upper.level = true)

/-- A change of a pair that keeps its configuration and the law of the guard. -/
structure Sound (v v' : PairView) : Prop where
  enabled : v'.pair.enabled = v.pair.enabled
  polarity : v'.pair.polarity = v.pair.polarity
  deadTime : v'.pair.deadTime = v.pair.deadTime
  safe : v.Safe → v'.Safe

variable {v v' v'' : PairView}

theorem Sound.refl (v : PairView) : Sound v v := ⟨rfl, rfl, rfl, id⟩

theorem Sound.trans (h : Sound v v') (h' : Sound v' v'') : Sound v v'' :=
  ⟨h'.enabled.trans h.enabled, h'.polarity.trans h.polarity, h'.deadTime.trans h.deadTime, h'.safe ∘ h.safe⟩

theorem isActive_congr {p p' : Pair} (e : p'.enabled = p.enabled) (o : p'.polarity = p.polarity) (l : Level) :
    p'.isActive l = p.isActive l := by simp [Pair.isActive, e, o]

theorem sound_wait (v : PairView) (side : Side) (w : Option Waiting) : Sound v (v.wait side w) := by
  cases side <;> exact ⟨rfl, rfl, rfl, id⟩

theorem sound_supersede (v : PairView) (side : Side) (r : Option Request) : Sound v (v.supersede side r) := by
  unfold supersede
  split
  · exact sound_wait _ _ _
  · exact .refl v

/-- A level is applied to a side whose partner is inactive. -/
theorem sound_apply (v : PairView) (side : Side) (l : Level) (h : v.pair.isActive (v.get side.other).level = false) :
    Sound v (v.apply side l) := by
  refine ⟨by cases side <;> rfl, by cases side <;> rfl, by cases side <;> rfl, fun _ => ?_⟩
  cases side
  · exact fun hs => Bool.false_ne_true (h.symm.trans hs.2)
  · exact fun hs => Bool.false_ne_true (h.symm.trans hs.1)

/-- An inactive level is applied to a side. -/
theorem sound_apply_inactive (v : PairView) (side : Side) (l : Level) (h : v.pair.isActive l = false) :
    Sound v (v.apply side l) := by
  refine ⟨by cases side <;> rfl, by cases side <;> rfl, by cases side <;> rfl, fun _ => ?_⟩
  cases side
  · exact fun hs => Bool.false_ne_true (h.symm.trans hs.1)
  · exact fun hs => Bool.false_ne_true (h.symm.trans hs.2)

theorem get_wait_level (v : PairView) (side side' : Side) (w : Option Waiting) :
    ((v.wait side w).get side').level = (v.get side').level := by
  cases side <;> cases side' <;> rfl

theorem sound_applyWaiting (v : PairView) (side : Side) (h : v.pair.isActive (v.get side.other).level = false) :
    Sound v (v.applyWaiting side).1 := by
  unfold applyWaiting
  split
  · exact .refl v
  · exact (sound_apply v side _ h).trans (sound_wait _ _ _)

theorem sound_deadTimeEnd (v : PairView) (t : Nat) : Sound v { v with pair := { v.pair with deadTimeEnd := t } } :=
  ⟨rfl, rfl, rfl, id⟩

theorem apply_pair (v : PairView) (side : Side) (l : Level) : (v.apply side l).pair = v.pair := by cases side <;> rfl

theorem apply_get (v : PairView) (side : Side) (l : Level) : ((v.apply side l).get side).level = l := by
  cases side <;> rfl

theorem other_other (side : Side) : side.other.other = side := by cases side <;> rfl

theorem sound_goInactive (v : PairView) (t : Nat) (side : Side) (l : Level) (h : v.pair.isActive l = false) :
    Sound v (v.goInactive t side l).1 := by
  have ha := sound_apply_inactive v side l h
  unfold goInactive
  dsimp only
  split
  · have hd : Sound v { v.apply side l with pair := { v.pair with deadTimeEnd := satAdd t v.pair.deadTime } } := by
      refine ha.trans ?_
      rw [← apply_pair v side l]
      exact sound_deadTimeEnd _ _
    split
    · refine hd.trans (sound_applyWaiting _ _ ?_)
      rw [other_other]
      have : (({ v.apply side l with pair := { v.pair with deadTimeEnd := satAdd t v.pair.deadTime } } : PairView).get
        side).level = l := by cases side <;> rfl
      rw [this]
      exact h
    · exact hd
  · exact ha

theorem classify_inactive {p : Pair} {a b : Level} (h : classify p a b = .inactiveGoing) : p.isActive b = false := by
  unfold classify at h
  split at h
  · cases h
  · split at h
    · cases h
    · simpa using ‹¬p.isActive b = true›

theorem sound_settlePart (v : PairView) (t : Nat) (side : Side) (r : Option Request) :
    Sound v (v.settlePart t side r).1 := by
  unfold settlePart
  split
  · exact .refl v
  · split
    · exact .refl v
    · exact sound_goInactive v t side _ (classify_inactive ‹_›)
    · exact .refl v

theorem sound_judge (v : PairView) (t : Nat) (side : Side) (q : Request) : Sound v (v.judge t side q).1 := by
  unfold judge
  dsimp only
  split
  · split
    · exact .refl v
    · split
      · exact .refl v
      · split
        · exact .refl v
        · exact sound_apply v side _ (by simpa using ‹¬v.pair.isActive _ = true›)
  · split
    · exact sound_wait _ _ _
    · rename_i h
      simp only [Bool.or_eq_true, not_or] at h
      exact sound_apply v side _ (by simpa using h.1)

theorem sound_judgePart (v : PairView) (t : Nat) (side : Side) (r : Option Request) (a : Option Answer) :
    Sound v (v.judgePart t side r a).1 := by
  unfold judgePart
  split
  · exact sound_judge _ _ _ _
  · exact .refl v

theorem sound_guardEnabled (v : PairView) (t : Nat) (lo up : Option Request) :
    Sound v (v.guardEnabled t lo up).view := by
  have h2 : Sound v (((((v.supersede .lower lo).supersede .upper up).settlePart t .lower lo).1).settlePart t .upper up).1 :=
    (((sound_supersede v _ _).trans (sound_supersede _ _ _)).trans (sound_settlePart _ _ _ _)).trans
      (sound_settlePart _ _ _ _)
  unfold guardEnabled
  dsimp only
  split
  · exact h2
  · exact (h2.trans (sound_judgePart _ _ _ _ _)).trans (sound_judgePart _ _ _ _ _)

theorem safe_disabled (h : v.pair.enabled = false) : v.Safe := by simp [Safe, Pair.isActive, h]

theorem applyDisabled_pair (v : PairView) (side : Side) (r : Option Request) :
    (v.applyDisabled side r).1.pair = v.pair := by
  cases r <;> cases side <;> rfl

/-- A batch keeps the pair's configuration and the law of the guard (R34 to R40). -/
theorem sound_batch (v : PairView) (t : Nat) (lo up : Option Request) : Sound v (v.batch t lo up).view := by
  unfold batch
  split
  · exact sound_guardEnabled v t lo up
  · rename_i h
    dsimp only
    have hp := (applyDisabled_pair (v.applyDisabled .lower lo).1 .upper up).trans (applyDisabled_pair v .lower lo)
    exact ⟨by rw [hp], by rw [hp], by rw [hp], fun _ => safe_disabled (by rw [hp]; simpa using h)⟩

theorem sound_expireSide (v : PairView) (side : Side) : Sound v (v.expireSide side).1 := by
  unfold expireSide
  split
  · exact .refl v
  · exact sound_applyWaiting v side (Bool.eq_false_of_not_eq_true ‹_›)

/-- A dead-time expiry keeps the pair's configuration and the law of the guard (R40). -/
theorem sound_expire (v : PairView) : Sound v v.expire.1 :=
  (sound_expireSide v .lower).trans (sound_expireSide _ .upper)

/-- A dead-time expiry leaves the pair's record as it was. -/
theorem expire_pair (v : PairView) : v.expire.1.pair = v.pair := by
  have h : ∀ (v : PairView) (side : Side), (v.expireSide side).1.pair = v.pair := fun v side => by
    unfold expireSide applyWaiting
    split
    · rfl
    · split
      · rfl
      · cases side <;> rfl
  exact (h _ _).trans (h _ _)

end Sys2Proof.Machine.PairView

namespace Sys2Proof.Machine

theorem pairOf_channelOf (k : Fin 16) (side : Side) : pairOf (channelOf k side) = k := by
  cases side <;> (apply Fin.ext; simp only [pairOf, channelOf]; omega)

theorem sideOf_channelOf (k : Fin 16) (side : Side) : sideOf (channelOf k side) = side := by
  cases side <;> simp [sideOf, channelOf]

theorem channelOf_pairOf (c : Fin 32) : channelOf (pairOf c) (sideOf c) = c := by
  unfold sideOf
  split <;> (apply Fin.ext; simp only [pairOf, channelOf]; omega)

namespace Part

/-- The channels after a pair is put back. -/
theorem channel_setPairView (p : Part) (k : Fin 16) (v : PairView) (c : Fin 32) :
    (p.setPairView k v).channel c = if pairOf c = k then v.get (sideOf c) else p.channel c := by
  show ((p.modChannel _ _).modChannel _ _).channel c = _
  rw [channel_modChannel, channel_modChannel]
  by_cases hk : pairOf c = k
  · subst hk
    have hc := channelOf_pairOf c
    cases hs : sideOf c <;> rw [hs] at hc <;> rw [if_pos rfl]
    · have hne : c ≠ channelOf (pairOf c) .upper := fun e => by
        have := sideOf_channelOf (pairOf c) .upper
        rw [← e, hs] at this
        cases this
      simp [hne, hc, PairView.get]
    · simp [hc, PairView.get]
  · have h1 : ∀ side, c ≠ channelOf k side := fun side e => hk (by rw [e, pairOf_channelOf])
    simp [hk, h1 _]

theorem pair_setPairView (p : Part) (k k' : Fin 16) (v : PairView) :
    (p.setPairView k v).pair k' = if k' = k then v.pair else p.pair k' := by
  unfold setPairView
  rw [pair_modPair]
  rfl

theorem pairView_setPairView (p : Part) (k k' : Fin 16) (v : PairView) :
    (p.setPairView k v).pairView k' = if k' = k then v else p.pairView k' := by
  unfold pairView
  simp only [channel_setPairView, pair_setPairView, pairOf_channelOf, sideOf_channelOf]
  split <;> rfl

end Part

end Sys2Proof.Machine
end

