-- ==== Sys2Proof/Laws/MonitorFrames.lean ====
section
/-!
SUPPORT. The shared operations leave the accesses of the other owners as they were: a move changes the posting write alone.
-/

namespace Sys2Proof.Machine

namespace Part

theorem handCompletion_monitor (p : Part) (n : Fin 4) (c : Completion) :
    (p.handCompletion n c).monitor = { p.monitor with posting := (p.handCompletion n c).monitor.posting } := by
  unfold handCompletion
  split
  · exact congrArg Part.monitor (issued_issueNext _).rest
  · rfl

theorem handNotice_monitor (p : Part) (n : Notice) :
    (p.handNotice n).monitor = { p.monitor with posting := (p.handNotice n).monitor.posting } := by
  unfold handNotice
  split
  · rfl
  · split
    · exact congrArg Part.monitor (issued_issueNext _).rest
    · split <;> rfl

theorem resolve_monitor (p : Part) (o : StepOutcome) (s : Step) :
    (p.resolve o s).monitor = { p.monitor with posting := (p.resolve o s).monitor.posting } := by
  unfold resolve
  split
  · rfl
  · split
    · rfl
    · dsimp only
      split
      · exact handCompletion_monitor _ _ _
      · rfl

/-- The monitor but for the posting write, which no move changes. -/
def otherAccesses (p : Part) : Monitor := { p.monitor with posting := none }

theorem otherAccesses_move {W : Fin 4 → Prop} {p p' : Part} (m : Move W p p') : p'.otherAccesses = p.otherAccesses := by
  unfold otherAccesses
  cases m with
  | completion n c _ => rw [handCompletion_monitor]
  | notice n => rw [handNotice_monitor]
  | resolve o s => rw [resolve_monitor]
  | channel => rfl
  | guarded => rfl
  | expired => rfl
  | domain => rfl
  | timeline => rfl
  | counted => rfl

theorem Moves.otherAccesses {p p' : Part} (h : Moves (fun _ => True) p p') : p'.otherAccesses = p.otherAccesses :=
  h.eq Part.otherAccesses fun _ _ m => otherAccesses_move m

theorem Moves.block {p p' : Part} (h : Moves (fun _ => True) p p') : p'.monitor.block = p.monitor.block :=
  (congrArg Monitor.block h.otherAccesses : p'.otherAccesses.block = p.otherAccesses.block)

theorem Moves.engine {p p' : Part} (h : Moves (fun _ => True) p p') : p'.engine = p.engine :=
  h.eq Part.engine fun _ _ m => by cases m <;> simp

theorem Moves.command {p p' : Part} (h : Moves (fun _ => True) p p') : p'.command = p.command :=
  h.eq Part.command fun _ _ m => by cases m <;> simp

theorem Moves.clock {p p' : Part} (h : Moves (fun _ => True) p p') : p'.clock = p.clock :=
  h.eq Part.clock fun _ _ m => by cases m <;> simp

theorem Moves.inputs {p p' : Part} (h : Moves (fun _ => True) p p') : p'.inputs = p.inputs :=
  h.eq Part.inputs fun _ _ m => by cases m <;> simp

theorem Moves.commandRead {p p' : Part} (h : Moves (fun _ => True) p p') : p'.monitor.command = p.monitor.command :=
  (congrArg Monitor.command h.otherAccesses : p'.otherAccesses.command = p.otherAccesses.command)

@[simp] theorem complete_block (p : Part) (q : Fin 8) (h : Header) (st : Status) (aux : Nat) :
    (p.complete q h st aux).monitor.block = p.monitor.block :=
  (moves_complete p q h st aux trivial).block
@[simp] theorem complete_commandRead (p : Part) (q : Fin 8) (h : Header) (st : Status) (aux : Nat) :
    (p.complete q h st aux).monitor.command = p.monitor.command :=
  (moves_complete p q h st aux trivial).commandRead
@[simp] theorem completeWith_block (p : Part) (q : Fin 8) (h : Header) (aux v : Nat) :
    (p.completeWith q h aux v).monitor.block = p.monitor.block :=
  (moves_completeWith p q h aux v trivial).block
@[simp] theorem completeWith_commandRead (p : Part) (q : Fin 8) (h : Header) (aux v : Nat) :
    (p.completeWith q h aux v).monitor.command = p.monitor.command :=
  (moves_completeWith p q h aux v trivial).commandRead
@[simp] theorem notify_block (p : Part) (b : NoticeBody) :
    (p.notify b).monitor.block = p.monitor.block :=
  (moves_notify p b).block
@[simp] theorem notify_commandRead (p : Part) (b : NoticeBody) :
    (p.notify b).monitor.command = p.monitor.command :=
  (moves_notify p b).commandRead
@[simp] theorem resolveAll_block (p : Part) (o : StepOutcome) (l : List Step) :
    (p.resolveAll o l).monitor.block = p.monitor.block :=
  (moves_resolveAll p o l).block
@[simp] theorem resolveAll_commandRead (p : Part) (o : StepOutcome) (l : List Step) :
    (p.resolveAll o l).monitor.command = p.monitor.command :=
  (moves_resolveAll p o l).commandRead
@[simp] theorem dropWhere_block (p : Part) (which : Step → Bool) (cause : DropCause) (c : Fin 32) :
    (p.dropWhere which cause c).monitor.block = p.monitor.block :=
  (moves_dropWhere p which cause c).block
@[simp] theorem dropWhere_commandRead (p : Part) (which : Step → Bool) (cause : DropCause) (c : Fin 32) :
    (p.dropWhere which cause c).monitor.command = p.monitor.command :=
  (moves_dropWhere p which cause c).commandRead
@[simp] theorem dropOn_block (p : Part) (l : List (Fin 32)) (which : Step → Bool) (cause : DropCause) :
    (p.dropOn l which cause).monitor.block = p.monitor.block :=
  (moves_dropOn p l which cause).block
@[simp] theorem dropOn_commandRead (p : Part) (l : List (Fin 32)) (which : Step → Bool) (cause : DropCause) :
    (p.dropOn l which cause).monitor.command = p.monitor.command :=
  (moves_dropOn p l which cause).commandRead
@[simp] theorem requestBatch_block (p : Part) (k : Fin 16) (lo up : Option Request) :
    (p.requestBatch k lo up).monitor.block = p.monitor.block :=
  (moves_requestBatch p k lo up).block
@[simp] theorem requestBatch_commandRead (p : Part) (k : Fin 16) (lo up : Option Request) :
    (p.requestBatch k lo up).monitor.command = p.monitor.command :=
  (moves_requestBatch p k lo up).commandRead
@[simp] theorem requestOne_block (p : Part) (c : Fin 32) (r : Request) :
    (p.requestOne c r).monitor.block = p.monitor.block :=
  (moves_requestOne p c r).block
@[simp] theorem requestOne_commandRead (p : Part) (c : Fin 32) (r : Request) :
    (p.requestOne c r).monitor.command = p.monitor.command :=
  (moves_requestOne p c r).commandRead
@[simp] theorem requestSafe_block (p : Part) (l : List (Fin 32)) (kind : WaitKind) :
    (p.requestSafe l kind).monitor.block = p.monitor.block :=
  (moves_requestSafe p l kind).block
@[simp] theorem requestSafe_commandRead (p : Part) (l : List (Fin 32)) (kind : WaitKind) :
    (p.requestSafe l kind).monitor.command = p.monitor.command :=
  (moves_requestSafe p l kind).commandRead
@[simp] theorem checkSafe_block (p : Part) (d : Fin 8) :
    (p.checkSafe d).monitor.block = p.monitor.block :=
  (moves_checkSafe p d).block
@[simp] theorem checkSafe_commandRead (p : Part) (d : Fin 8) :
    (p.checkSafe d).monitor.command = p.monitor.command :=
  (moves_checkSafe p d).commandRead
@[simp] theorem checkReported_block (p : Part) (l : List SafeReport) :
    (p.checkReported l).monitor.block = p.monitor.block :=
  (moves_checkReported p l).block
@[simp] theorem checkReported_commandRead (p : Part) (l : List SafeReport) :
    (p.checkReported l).monitor.command = p.monitor.command :=
  (moves_checkReported p l).commandRead
@[simp] theorem makeEntry_block (p : Part) (d : Fin 8) (n : Nat) (c : Fin 32) :
    (p.makeEntry d n c).monitor.block = p.monitor.block :=
  (moves_makeEntry p d n c).block
@[simp] theorem makeEntry_commandRead (p : Part) (d : Fin 8) (n : Nat) (c : Fin 32) :
    (p.makeEntry d n c).monitor.command = p.monitor.command :=
  (moves_makeEntry p d n c).commandRead
@[simp] theorem trip_block (p : Part) (d : Fin 8) (cause : Cause) :
    (p.trip d cause).monitor.block = p.monitor.block :=
  (moves_trip p d cause).block
@[simp] theorem trip_commandRead (p : Part) (d : Fin 8) (cause : Cause) :
    (p.trip d cause).monitor.command = p.monitor.command :=
  (moves_trip p d cause).commandRead
@[simp] theorem offer_block (p : Part) (cause : Cause) (d : Fin 8) :
    (p.offer cause d).monitor.block = p.monitor.block :=
  (moves_offer p cause d).block
@[simp] theorem offer_commandRead (p : Part) (cause : Cause) (d : Fin 8) :
    (p.offer cause d).monitor.command = p.monitor.command :=
  (moves_offer p cause d).commandRead
@[simp] theorem offerAll_block (p : Part) (cause : Cause) :
    (p.offerAll cause).monitor.block = p.monitor.block :=
  (moves_offerAll p cause).block
@[simp] theorem offerAll_commandRead (p : Part) (cause : Cause) :
    (p.offerAll cause).monitor.command = p.monitor.command :=
  (moves_offerAll p cause).commandRead
@[simp] theorem contention_block (p : Part) (k : Fin 16) (lo up : Option Request) (r : GuardResult) (n : Nat) (w : Bool) :
    (p.contention k lo up r n w).monitor.block = p.monitor.block :=
  (moves_contention p k lo up r n w).block
@[simp] theorem contention_commandRead (p : Part) (k : Fin 16) (lo up : Option Request) (r : GuardResult) (n : Nat) (w : Bool) :
    (p.contention k lo up r n w).monitor.command = p.monitor.command :=
  (moves_contention p k lo up r n w).commandRead
@[simp] theorem takeOver_block (p : Part) :
    (p.takeOver).monitor.block = p.monitor.block :=
  (moves_takeOver p).block
@[simp] theorem takeOver_commandRead (p : Part) :
    (p.takeOver).monitor.command = p.monitor.command :=
  (moves_takeOver p).commandRead

@[simp] theorem issueNext_block (p : Part) : p.issueNext.monitor.block = p.monitor.block :=
  congrArg (fun q => q.monitor.block) (issued_issueNext p).rest
@[simp] theorem issueNext_commandRead (p : Part) : p.issueNext.monitor.command = p.monitor.command :=
  congrArg (fun q => q.monitor.command) (issued_issueNext p).rest

end Part

end Sys2Proof.Machine
end

