-- ==== Sys2Proof/Laws/PerInstr.lean ====
section
/-!
SUPPORT. A law of the commands as syntax, one lemma per row: a fetched row is the one row of its record, and is well-formed
exactly when its record is.
-/

namespace Sys2Proof

/-- The fetched row of a record with a given header and command, if the kind is one of the twenty (section 8.7). -/
def rowOf (h : Header) : Command → Option Instr
  | .schedule b => some (.schedule h b)
  | .scheduleRepeating b => some (.scheduleRepeating h b)
  | .scheduleList b => some (.scheduleList h b)
  | .cancelTag tag => some (.cancelTag h tag)
  | .cancelChannel channel => some (.cancelChannel h channel)
  | .configureChannel b => some (.configureChannel h b)
  | .configurePair b => some (.configurePair h b)
  | .queryChannel channel => some (.queryChannel h channel)
  | .configureDomain b => some (.configureDomain h b)
  | .loadSafeSequence b => some (.loadSafeSequence h b)
  | .armDomain domain => some (.armDomain h domain)
  | .disarmDomain domain => some (.disarmDomain h domain)
  | .tripDomain domain => some (.tripDomain h domain)
  | .releaseDomain domain => some (.releaseDomain h domain)
  | .queryDomain domain => some (.queryDomain h domain)
  | .configureFaultInput b => some (.configureFaultInput h b)
  | .clearFaultLatch input => some (.clearFaultLatch h input)
  | .configureSupervisor b => some (.configureSupervisor h b)
  | .restorePrimaryClock => some (.restorePrimaryClock h)
  | .readTime => some (.readTime h)
  | .unknownKind _ => none

/-- A record carries its own number of step or sequence entries (section 12.3). -/
def Command.wellFormed : Command → Bool
  | .schedule b => b.wellFormed
  | .loadSafeSequence b => b.wellFormed
  | .scheduleRepeating _ => true
  | .scheduleList _ => true
  | .cancelTag _ => true
  | .cancelChannel _ => true
  | .configureChannel _ => true
  | .configurePair _ => true
  | .queryChannel _ => true
  | .configureDomain _ => true
  | .armDomain _ => true
  | .disarmDomain _ => true
  | .tripDomain _ => true
  | .releaseDomain _ => true
  | .queryDomain _ => true
  | .configureFaultInput _ => true
  | .clearFaultLatch _ => true
  | .configureSupervisor _ => true
  | .restorePrimaryClock => true
  | .readTime => true
  | .unknownKind _ => true

/-- The law: the record of a row names the row, and the row is well-formed exactly when the record is. -/
def Laws.RowRule.Statement (i : Instr) : Prop :=
  ∀ h cmd, i.record? = some (h, cmd) → rowOf h cmd = some i ∧ i.wellFormed = cmd.wellFormed

namespace Laws.RowRule

theorem schedule (h : Header) (b : ScheduleBody) : Statement (.schedule h b) := by
  rintro h cmd ⟨⟩
  exact ⟨rfl, rfl⟩
theorem scheduleRepeating (h : Header) (b : RepeatingBody) : Statement (.scheduleRepeating h b) := by
  rintro h cmd ⟨⟩
  exact ⟨rfl, rfl⟩
theorem scheduleList (h : Header) (b : ListBody) : Statement (.scheduleList h b) := by
  rintro h cmd ⟨⟩
  exact ⟨rfl, rfl⟩
theorem cancelTag (h : Header) (tag : BitVec 16) : Statement (.cancelTag h tag) := by
  rintro h cmd ⟨⟩
  exact ⟨rfl, rfl⟩
theorem cancelChannel (h : Header) (channel : BitVec 8) : Statement (.cancelChannel h channel) := by
  rintro h cmd ⟨⟩
  exact ⟨rfl, rfl⟩
theorem configureChannel (h : Header) (b : ChannelBody) : Statement (.configureChannel h b) := by
  rintro h cmd ⟨⟩
  exact ⟨rfl, rfl⟩
theorem configurePair (h : Header) (b : PairBody) : Statement (.configurePair h b) := by
  rintro h cmd ⟨⟩
  exact ⟨rfl, rfl⟩
theorem queryChannel (h : Header) (channel : BitVec 8) : Statement (.queryChannel h channel) := by
  rintro h cmd ⟨⟩
  exact ⟨rfl, rfl⟩
theorem configureDomain (h : Header) (b : DomainBody) : Statement (.configureDomain h b) := by
  rintro h cmd ⟨⟩
  exact ⟨rfl, rfl⟩
theorem loadSafeSequence (h : Header) (b : SequenceBody) : Statement (.loadSafeSequence h b) := by
  rintro h cmd ⟨⟩
  exact ⟨rfl, rfl⟩
theorem armDomain (h : Header) (domain : BitVec 8) : Statement (.armDomain h domain) := by
  rintro h cmd ⟨⟩
  exact ⟨rfl, rfl⟩
theorem disarmDomain (h : Header) (domain : BitVec 8) : Statement (.disarmDomain h domain) := by
  rintro h cmd ⟨⟩
  exact ⟨rfl, rfl⟩
theorem tripDomain (h : Header) (domain : BitVec 8) : Statement (.tripDomain h domain) := by
  rintro h cmd ⟨⟩
  exact ⟨rfl, rfl⟩
theorem releaseDomain (h : Header) (domain : BitVec 8) : Statement (.releaseDomain h domain) := by
  rintro h cmd ⟨⟩
  exact ⟨rfl, rfl⟩
theorem queryDomain (h : Header) (domain : BitVec 8) : Statement (.queryDomain h domain) := by
  rintro h cmd ⟨⟩
  exact ⟨rfl, rfl⟩
theorem configureFaultInput (h : Header) (b : InputBody) : Statement (.configureFaultInput h b) := by
  rintro h cmd ⟨⟩
  exact ⟨rfl, rfl⟩
theorem clearFaultLatch (h : Header) (input : BitVec 8) : Statement (.clearFaultLatch h input) := by
  rintro h cmd ⟨⟩
  exact ⟨rfl, rfl⟩
theorem configureSupervisor (h : Header) (b : SupervisorBody) : Statement (.configureSupervisor h b) := by
  rintro h cmd ⟨⟩
  exact ⟨rfl, rfl⟩
theorem restorePrimaryClock (h : Header) : Statement (.restorePrimaryClock h) := by
  rintro h cmd ⟨⟩
  exact ⟨rfl, rfl⟩
theorem readTime (h : Header) : Statement (.readTime h) := by
  rintro h cmd ⟨⟩
  exact ⟨rfl, rfl⟩
theorem start : Statement .start := by
  rintro h cmd ⟨⟩
theorem halt : Statement .halt := by
  rintro h cmd ⟨⟩
theorem softReset : Statement .softReset := by
  rintro h cmd ⟨⟩
theorem unknownControlOperation (operation : BitVec 4) : Statement (.unknownControlOperation operation) := by
  rintro h cmd ⟨⟩
theorem postTail (target : BitVec 4) (index : BitVec 16) : Statement (.postTail target index) := by
  rintro h cmd ⟨⟩
theorem resetQueue (target : BitVec 4) : Statement (.resetQueue target) := by
  rintro h cmd ⟨⟩
theorem consume (target : BitVec 4) (index : BitVec 16) : Statement (.consume target index) := by
  rintro h cmd ⟨⟩
theorem unrecognisedNotifyOperation (operation : BitVec 4) (target : BitVec 4) (index : BitVec 16) : Statement (.unrecognisedNotifyOperation operation target index) := by
  rintro h cmd ⟨⟩
theorem intCauseWrite (value : BitVec 32) : Statement (.intCauseWrite value) := by
  rintro h cmd ⟨⟩
theorem intEnableWrite (value : BitVec 32) : Statement (.intEnableWrite value) := by
  rintro h cmd ⟨⟩
theorem registerWrite (offset : BitVec 8) (value : BitVec 32) : Statement (.registerWrite offset value) := by
  rintro h cmd ⟨⟩
theorem hardReset : Statement .hardReset := by
  rintro h cmd ⟨⟩
theorem resetnNegated : Statement .resetnNegated := by
  rintro h cmd ⟨⟩
theorem dueTimeEvent (due : DueEvent) : Statement (.dueTimeEvent due) := by
  rintro h cmd ⟨⟩
theorem deadTimeExpiry (pair : Fin 16) : Statement (.deadTimeExpiry pair) := by
  rintro h cmd ⟨⟩
theorem safeSequenceEntryDue (domain : Fin 8) (entry : Nat) : Statement (.safeSequenceEntryDue domain entry) := by
  rintro h cmd ⟨⟩
theorem sampleEvent (input : Fin 16) (pinHigh : Bool) : Statement (.sampleEvent input pinHigh) := by
  rintro h cmd ⟨⟩
theorem primaryStop : Statement .primaryStop := by
  rintro h cmd ⟨⟩
theorem windowEnd : Statement .windowEnd := by
  rintro h cmd ⟨⟩
theorem referenceTimeout : Statement .referenceTimeout := by
  rintro h cmd ⟨⟩
theorem holdoffExpiry (queue : Fin 4) : Statement (.holdoffExpiry queue) := by
  rintro h cmd ⟨⟩
theorem fetchGrant : Statement .fetchGrant := by
  rintro h cmd ⟨⟩
theorem recordArrives (data : List Byte) : Statement (.recordArrives data) := by
  rintro h cmd ⟨⟩
theorem listArrives (data : List Byte) : Statement (.listArrives data) := by
  rintro h cmd ⟨⟩
theorem completionWriteAnswered : Statement .completionWriteAnswered := by
  rintro h cmd ⟨⟩
theorem noticeWriteAnswered : Statement .noticeWriteAnswered := by
  rintro h cmd ⟨⟩
theorem configurationBlockArrives (data : List Byte) : Statement (.configurationBlockArrives data) := by
  rintro h cmd ⟨⟩
theorem accessTimeout (owner : AccessOwner) : Statement (.accessTimeout owner) := by
  rintro h cmd ⟨⟩
theorem busErrorResponse (owner : AccessOwner) : Statement (.busErrorResponse owner) := by
  rintro h cmd ⟨⟩
theorem lateAnswer : Statement .lateAnswer := by
  rintro h cmd ⟨⟩
theorem timebaseTick : Statement .timebaseTick := by
  rintro h cmd ⟨⟩
theorem refEdge : Statement .refEdge := by
  rintro h cmd ⟨⟩
theorem tclkEdge : Statement .tclkEdge := by
  rintro h cmd ⟨⟩
theorem primaryIndicationAbsent : Statement .primaryIndicationAbsent := by
  rintro h cmd ⟨⟩

end Laws.RowRule

end Sys2Proof
end

