-- ==== Sys2Proof/Laws/Ready.lean ====
section
/-!
SUPPORT. A fetched command that is ready to be taken: its effect is that of its block on the part its record leaves, and no
posting fault cuts it short.
-/

namespace Sys2Proof.Machine

/-- Every fetched row is the arrival of its record (log 7). -/
theorem exec_fetched {i : Instr} {h : Header} {cmd : Command} (hi : i.record? = some (h, cmd)) (s : State) :
    exec i s = event (Part.arrival h cmd) s := by
  cases i <;> cases hi <;> rfl

namespace Part

variable {p : Part} {q : Fin 8}

theorem fetching_iff : p.fetching q = true ↔ p.resetAsserted = false ∧ p.engine.state = .running ∧
    p.command.path = .fetch q false ∧ (p.queue q).state = .active := by
  simp only [fetching, Bool.and_eq_true, Bool.not_eq_true', beq_iff_eq, and_assoc]

theorem ready_iff : p.ready q = true ↔ p.fetching q = true ∧ p.writesAllowed = true := by
  simp only [ready, Bool.and_eq_true]

theorem arrival_fetching (h : p.fetching q = true) (hd : Header) (cmd : Command) :
    p.arrival hd cmd = some ((p.taken q).process q hd cmd) := by
  obtain ⟨-, -, hp, -⟩ := fetching_iff.1 h
  unfold arrival
  rw [hp]
  rfl

theorem queue_taken (p : Part) (q q' : Fin 8) : (p.taken q).queue q' =
    if q' = q then { p.queue q with head := nextIndex (p.queue q).size (p.queue q).head } else p.queue q' := by
  unfold taken advanceHead
  rw [queue_modQueue]
  rfl

/-- Taking a record keeps all but the command path, its read and the head of the queue. -/
theorem taken_rest (p : Part) (q : Fin 8) :
    p.taken q = { p with command := (p.taken q).command, monitor := { p.monitor with command := none } } := rfl

theorem taken_cq (p : Part) (q : Fin 8) : ((p.taken q).queue q).cq = (p.queue q).cq := by
  rw [queue_taken, if_pos rfl]

/-- Calm depends on the engine's state, the table, the Posting Unit, the windows and the posting write alone. -/
theorem Calm.taken {W : Fin 4 → Prop} (h : Calm W p) (q : Fin 8) : Calm W (p.taken q) := ⟨h.fault, h.entries, h.next⟩

theorem ready_calm (h : p.ready q = true) : Calm (fun n => p.owes n = true) (p.taken q) :=
  (calm_of_writesAllowed (ready_iff.1 h).2).taken q

theorem ready_owes (h : p.ready q = true) : p.owes ((p.taken q).queue q).cq = true := by
  obtain ⟨-, -, -, ha⟩ := fetching_iff.1 (ready_iff.1 h).1
  rw [taken_cq]
  exact owes_queue p q (.inl (by rw [ha]; simp))

theorem ready_running (h : p.ready q = true) : (p.taken q).engine.state = .running :=
  (fetching_iff.1 (ready_iff.1 h).1).2.1

/-- A part that no posting fault has met and whose engine is RUNNING is settled. -/
theorem settle_running (hf : p.posting.fault = none) (he : p.engine.state = .running) : p.settle = p :=
  settle_calm hf (by rw [he]; simp)

/-- What a calm part that completes a command for its queue is at the end of the event. -/
theorem Calm.complete {W : Fin 4 → Prop} (h : Calm W p) (hW : W (p.queue q).cq) (hd : Header) (st : Status) (aux : Nat) :
    Calm W (p.complete q hd st aux) := h.handCompletion _ _ hW

theorem Calm.completeWith {W : Fin 4 → Prop} (h : Calm W p) (hW : W (p.queue q).cq) (hd : Header) (aux v : Nat) :
    Calm W (p.completeWith q hd aux v) := h.handCompletion _ _ hW

/-! ### Reading a refusal table -/

theorem answered_nil (hd : Header) (acc : Part) : p.answered q hd [] acc = acc := rfl

theorem answered_cons (hd : Header) (b : Bool) (st : Status) (aux : Nat) (t : List (Bool × Status × Nat)) (acc : Part) :
    p.answered q hd ((b, st, aux) :: t) acc = if b then p.complete q hd st aux else p.answered q hd t acc := by
  cases b <;> rfl

theorem Calm.answered {W : Fin 4 → Prop} (h : Calm W p) (hW : W (p.queue q).cq) (hd : Header)
    (t : List (Bool × Status × Nat)) {acc : Part} (ha : Calm W acc) : Calm W (p.answered q hd t acc) := by
  unfold Part.answered
  split
  · exact h.complete hW _ _ _
  · exact ha

theorem answered_engine (hd : Header) (t : List (Bool × Status × Nat)) {acc : Part} (ha : acc.engine = p.engine) :
    (p.answered q hd t acc).engine = p.engine := by
  unfold Part.answered
  split
  · simp
  · exact ha

end Part

/-- A fetched command that is ready takes the machine to what its block leaves, if that meets no posting fault. -/
theorem ready_takes {i : Instr} {h : Header} {cmd : Command} {s : State} {q : Fin 8} {p : Part}
    (hi : i.record? = some (h, cmd)) (hr : s.part.ready q = true) (hp : (s.part.taken q).process q h cmd = p)
    (hf : p.posting.fault = none) (he : p.engine.state = .running) : takes i s p := by
  have hx := (Part.ready_iff.1 hr).1
  unfold takes
  rw [exec_fetched hi, event_some (Part.fetching_iff.1 hx).1 (Part.arrival_fetching hx h cmd), hp,
    Part.settle_running hf he]

end Sys2Proof.Machine
end

