-- ==== Sys2Proof/Laws/Steps.lean ====
section
/-!
SUPPORT. What a step can do, said once: a command's effect, or a period of the backup oscillator.
-/

namespace Sys2Proof.Machine

/-- A step is the command at the front of the queue, or with none a period of the backup oscillator. -/
theorem step_cases {s s' : State} (h : step s = .next s') :
    (s.pending = [] ∧ s' = { s with part := s.part.backupPeriod }) ∨
      ∃ c rest, s.pending = c :: rest ∧ exec c { s with pending := rest } = .next s' := by
  unfold step at h
  split at h
  · rename_i e
    cases h
    exact .inl ⟨e, rfl⟩
  · rename_i c rest e
    exact .inr ⟨c, rest, e, h⟩

namespace Part

/-- A period of the backup oscillator changes the detector's count alone. -/
theorem backupPeriod_eq (p : Part) :
    p.backupPeriod = p.modClock fun c => { c with
      detectorCount :=
        if p.resetAsserted = false ∧ c.source = .primary ∧ c.detectorCount < 32 then c.detectorCount + 1
        else c.detectorCount } := by
  obtain ⟨r, _, ⟨_, source, _, _, _⟩, _⟩ := p
  cases r <;> cases source <;> simp [backupPeriod, countTo, modClock, Config.detectorLimit]
  split <;> simp [*]

@[simp] theorem backupPeriod_output (p : Part) : p.backupPeriod.output = p.output := by rw [backupPeriod_eq]; rfl
@[simp] theorem backupPeriod_timelines (p : Part) : p.backupPeriod.timelines = p.timelines := by rw [backupPeriod_eq]; rfl
@[simp] theorem backupPeriod_table (p : Part) : p.backupPeriod.table = p.table := by rw [backupPeriod_eq]; rfl
@[simp] theorem backupPeriod_domains (p : Part) : p.backupPeriod.domains = p.domains := by rw [backupPeriod_eq]; rfl
@[simp] theorem backupPeriod_posting (p : Part) : p.backupPeriod.posting = p.posting := by rw [backupPeriod_eq]; rfl
@[simp] theorem backupPeriod_command (p : Part) : p.backupPeriod.command = p.command := by rw [backupPeriod_eq]; rfl
@[simp] theorem backupPeriod_time (p : Part) : p.backupPeriod.clock.time = p.clock.time := by rw [backupPeriod_eq]; rfl

theorem changes_backupPeriod (p : Part) {L R : Prop} : Changes L R p p.backupPeriod := by
  rw [backupPeriod_eq]
  exact Changes.modClock .refl

end Part

end Sys2Proof.Machine
end

