-- ==== Sys2Proof/Tests/Slice0.lean ====
section
/-!
SUPPORT. Our own tests: the well-formedness smoke tests, single steps with the values of the worked sequences of sections
12.5 to 12.8, and a witness for the hypotheses of every statement that has some.
-/

namespace Sys2Proof.Tests

open Sys2Proof.Machine

-- One theorem at a time: checked side by side, this many would want more threads than the memory limit has room for.
set_option Elab.async false

/-! ## Small states -/

/-- The state with this part and no command waiting. -/
def at_ (p : Part) : State := { part := p, pending := [] }

/-- The part after a command. -/
def after (i : Instr) (p : Part) : Part :=
  match exec i (at_ p) with
  | .next s => s.part
  | _ => p

/-- A RUNNING part: queue 0 is bound to completion queue 0, queue 1 is URGENT and hold-when-full and bound to completion
queue 1, both are enabled with every authority, the notice ring is enabled, and one window allows the first 2^20 bytes. -/
def running : Part :=
  let queue : QueueContext :=
    { enabled := true, base := 0x1000, size := 8, cq := 0, urgent := false, mask := BitVec.allOnes 32, authority := 15,
      quota := 4, holdWhenFull := false, head := 0, tail := 1, state := .active, hold := none }
  let completions : CompletionContext :=
    { CompletionContext.reset with enabled := true, base := 0x2000, size := 16, threshold := 1, holdoff := 1 }
  (((((Part.reset.modEngine fun e => { e with state := .running }).modQueue 0 fun _ => queue).modQueue 1 fun _ =>
    { queue with cq := 1, urgent := true, holdWhenFull := true }).modCq 0 fun _ => completions).modCq 1 fun _ =>
      completions).modPosting (fun u =>
        { u with ring := { u.ring with enabled := true, base := 0x3000, size := 8 } }) |>.modMonitor fun m =>
          { m with timeout := 1, windows := updateAt m.windows 0 fun _ =>
            { base := 0, length := 2 ^ 20, allowRead := true, allowWrite := true } }

/-- The access of a record fetch, and of a step list read of two entries. -/
def recordFetch : Access := { purpose := .recordFetch, address := 0x1000, length := 64, timer := 16, limit := 16, data := [] }
def listRead : Access := { recordFetch with purpose := .listRead, length := 16 }

/-- The part with a live fetch of queue q's record, whose one reserved credit is held. -/
def fetching (q : Fin 8) (p : Part) : Part :=
  { (p.modCq (p.queue q).cq fun n => { n with reserved := n.reserved + 1 }) with
    command := { p.command with path := .fetch q false }
    monitor := { p.monitor with command := some recordFetch } }

/-- A header without flags, and one with COMPLETE ON EXECUTION. -/
def plain : Header := { flags := 0, id := 7, time := 1000 }
def deferred : Header := { plain with flags := 1 }

/-- One entry of a step list, and a SCHEDULE of some entries. -/
def entry (offset channel action : Nat) : StepEntry :=
  { offset := BitVec.ofNat 32 offset, tag := 0, channel := BitVec.ofNat 8 channel, action := BitVec.ofNat 8 action }
def schedule (entries : List StepEntry) : ScheduleBody :=
  { stepCount := BitVec.ofNat 8 entries.length
    entries := entries ++ List.replicate (5 - entries.length) (entry 0 0 0) }

/-- A stored single step of queue 1. -/
def single (effective : Nat) (action : Action) (link : Option (Fin 64)) : Machine.Step :=
  { effective := effective, body := .single action, tag := 0, origin := 1, link := link, late := false }

/-! ## Decoding and well-formedness -/

theorem test_no_word_spells_a_command : decodeTableWord 32 0 = none ∧ decodeTableWord 64 1 = none := by decide

theorem test_record_terms_refused :
    (Instr.schedule plain { stepCount := 1, entries := [entry 0 0 1] }).wellFormed = false ∧
      (Instr.loadSafeSequence plain { domain := 0, entryCount := 0, entries := [] }).wellFormed = false ∧
      (Instr.recordArrives (List.replicate 63 0)).wellFormed = false ∧
      (Instr.configurationBlockArrives (List.replicate 385 0)).wellFormed = false := by decide +kernel

theorem test_list_terms_refused :
    (Instr.listArrives []).wellFormed = false ∧ (Instr.listArrives (List.replicate 12 0)).wellFormed = false ∧
      (Instr.listArrives (List.replicate 2056 0)).wellFormed = false ∧
      (Instr.listArrives (List.replicate 2048 0)).wellFormed = true := by decide +kernel

theorem test_operation_terms_refused :
    (Instr.unknownControlOperation 3).wellFormed = false ∧ (Instr.unknownControlOperation 1).wellFormed = false ∧
      (Instr.unrecognisedNotifyOperation 2 0 0).wellFormed = false ∧
      (Instr.unrecognisedNotifyOperation 4 0 0).wellFormed = true := by decide

theorem test_other_terms_refused :
    (Instr.registerWrite 0x18 0).wellFormed = false ∧ (Instr.registerWrite 0x08 0).wellFormed = true ∧
      (Instr.safeSequenceEntryDue 0 0).wellFormed = false ∧ (Instr.safeSequenceEntryDue 0 9).wellFormed = false ∧
      (Instr.safeSequenceEntryDue 0 8).wellFormed = true := by decide

/-! ## The half-bridge of section 12.5 -/

/-- Pair 0 of section 12.5 at time t, with the levels, the dead-time end, the timelines and entry 0 of one row. -/
def bridge (t : Nat) (level0 level1 : Level) (deadTimeEnd : Nat) (timeline0 timeline1 : List Machine.Step)
    (remaining executed : Nat) : Part :=
  ((((((running.modClock fun c => { c with time := t }).modChannel 0 fun c => { c with level := level0 }).modChannel 1
    fun c => { c with level := level1 }).modPair 0 fun _ =>
      { enabled := true, polarity := .activeHigh, deadTime := 20, deadTimeEnd := deadTimeEnd }).setTimeline 0
        timeline0).setTimeline 1 timeline1).setEntry 0 (some
          { queue := 1, id := 7, cq := 1, total := 4, executed := executed, late := false, drops := 0,
            remaining := remaining, lastTime := 0 })

/-- The steps of section 12.5 that change channel 0 and channel 1, at an effective time. -/
def low (t : Nat) : Machine.Step := single t .driveLow (some 0)
def high (t : Nat) : Machine.Step := single t .driveHigh (some 0)

/-- The row 900: the command is admitted whole and takes entry 0 with total 4. -/
theorem test_half_bridge_admission :
    let p := after (.schedule deferred (schedule [entry 0 0 2, entry 0 1 1, entry 500 1 2, entry 510 0 1]))
      (fetching 1 { bridge 900 .high .low 0 [] [] 0 0 with table := Part.reset.table })
    p.timeline 0 = [low 1000, high 1510] ∧ p.timeline 1 = [high 1000, low 1500] ∧
      (p.entry 0).map (fun e => (e.remaining, e.executed, e.total)) = some (4, 0, 4) := by decide +kernel

/-- The row 1000: A1 is applied, and A2 is deferred to the new dead-time end. -/
theorem test_half_bridge_deferral :
    let p := after (.dueTimeEvent { channel := 1, tripWaits := false }) (bridge 1000 .high .low 0 [low 1000, high 1510] [high 1000, low 1500] 4 0)
    ((p.channel 0).level, (p.channel 1).level, (p.pair 0).deadTimeEnd) = (.low, .low, 1020) ∧
      p.timeline 0 = [high 1510] ∧ p.timeline 1 = [high 1020, low 1500] ∧
      (p.entry 0).map (fun e => (e.remaining, e.executed)) = some (3, 1) := by decide +kernel

/-- The row 1520: the last step is applied, the entry is freed, and the completion is OK with aux 4 and value 1520. -/
theorem test_half_bridge_completion :
    let p := after (.dueTimeEvent { channel := 0, tripWaits := false }) (bridge 1520 .low .low 1520 [high 1520] [] 1 3)
    (p.channel 0).level = .high ∧ p.timeline 0 = [] ∧ p.entry 0 = none ∧
      p.posting.writeList = [.completion 1 { queue := 1, id := 7, status := .ok, aux := 4, drops := 0, value := 1520 }] := by
  decide +kernel

/-! ## The HOLD trip of section 12.6 -/

/-- R of section 12.6 with some cycles remaining and a next level. -/
def toggling (cycles : Nat) (next : NextLevel) : Repeat :=
  { levelA := .high, levelB := .low, afterA := 100, afterB := 100, cycles := cycles, next := next }

/-- Domain 2 of section 12.6 at time t in a state, with channel 17's level, and N and R held. -/
def holding (t : Nat) (state : DomainState) (level17 : Level) : Part :=
  let entry : TableEntry :=
    { queue := 1, id := 7, cq := 1, total := 1, executed := 0, late := false, drops := 0, remaining := 1, lastTime := 0 }
  let channel (level : Level) : Channel :=
    { level := level, safe := .low, force := if state = .tripped then some .domain else none, waiting := none }
  ((((((((running.modClock fun c => { c with time := t }).modChannel 16 fun _ => channel .low).modChannel 17 fun _ =>
    channel level17).setTimeline 16 [single 8000 .driveHigh (some 3)]).setTimeline 17
      [{ single 7900 .mark (some 4) with body := .repeating (toggling 3 .b) }]).setEntry 3 (some entry)).setEntry 4 (some entry)).modDomain 2 fun d => { d with
              state := state, members := 0x30000, sources := 0x20, disposition := .hold,
              causes := if state = .tripped then 0x20 else 0 }).modInput 5 fun i => { i with enabled := true, spacing := 1 }

/-- At 7850 input 5 is activated: both members are FORCED(DOMAIN) at LOW, the steps are held, and the domain is TRIPPED
with DOMAIN TRIPPED before DOMAIN SAFE. -/
theorem test_hold_trip :
    let p := after (.sampleEvent 5 true) (holding 7850 .armed .high)
    (p.domain 2).state = .tripped ∧ (p.domain 2).tripTime = 7850 ∧ (p.domain 2).causes = 0x20 ∧
      p.channel 17 = { level := .low, safe := .low, force := some .domain, waiting := none } ∧
      (p.timeline 16).length = 1 ∧ (p.timeline 17).length = 1 ∧
      p.posting.writeList =
        [.notice { time := 7850, body := .domainTripped 2 (.input 5) .hold 0 0x30000 0 2 },
         .notice { time := 7850, body := .domainSafe 2 0x20 7850 }] := by decide +kernel

/-- At 8150 the release drops N EXPIRED and carries R forward to 8200 with one cycle left, and hands over entry 3's
completion, DOMAIN RELEASED and its own completion, in that order. -/
theorem test_hold_release :
    let p := after (.releaseDomain plain 2) (fetching 1 (holding 8150 .tripped .low))
    (p.domain 2).state = .armed ∧ p.timeline 16 = [] ∧
      (p.timeline 17).map (fun x => (x.effective, x.body)) = [(8200, .repeating (toggling 1 .a))] ∧
      p.posting.writeList =
        [.completion 1 { queue := 1, id := 7, status := .abandoned, aux := 0, drops := DropCause.expired.mask, value := 8150 },
         .notice { time := 8150, body := .domainReleased 2 0x20 1 1 1 },
         .completion 1 { queue := 1, id := 7, status := .ok, aux := 1, drops := 0, value := 8150 }] := by decide +kernel

/-! ## A step due at a domain's trip (R78) -/

/-- Domain 2 of section 12.6 at 7850, ARMED and selecting CONTENTION too, with a pulse on its way to it. -/
def contended : Part :=
  (holding 7850 .armed .high).modDomain 2 fun d => { d with sources := 0x20020, contentionWaits := true }

/-- R78: taken before the trip, the batch's contention event adds CONTENTION to the domain the input has tripped. -/
theorem test_contention_reaches_the_domain_after_its_trip :
    let p := after (.sampleEvent 5 true) contended
    (p.domain 2).state = .tripped ∧ (p.domain 2).causes = 0x20020 ∧ (p.domain 2).contentionWaits = false ∧
      p.posting.writeList =
        [.notice { time := 7850, body := .domainTripped 2 (.input 5) .hold 0 0x30000 0 2 },
         .notice { time := 7850, body := .domainSafe 2 0x20 7850 },
         .notice { time := 7850, body := .domainCauseAdded 2 .contention .tripped 0x20020 }] := by decide +kernel

/-! ## The held queue of section 12.7 -/

/-- SQ5 of section 12.7 at time t: hold-when-full, quota 4, bound to CQ2, with some stored steps on channels 10 and 11. -/
def fullQueue (t : Nat) (timeline10 timeline11 : List Nat) (hold : Option Held) : Part :=
  let step (t : Nat) : Machine.Step := { single t .mark none with tag := 20, origin := 5 }
  ((((running.modClock fun c => { c with time := t }).modQueue 5 fun _ =>
    { running.queue 0 with
      cq := 2, holdWhenFull := true, tail := 3, state := if hold.isSome then .holding else .active, hold := hold }).modCq 2
        fun _ => running.cq 0).setTimeline 10 (timeline10.map step)).setTimeline 11 (timeline11.map step)

/-- The command of id 51: two steps on channel 12, relative to base time 0. -/
def relative : Header := { flags := 4, id := 51, time := 0 }
def twoSteps : ScheduleBody := schedule [entry 500 12 1, entry 600 12 2]
def parked : Held := { header := relative, command := .schedule twoSteps, status := .noSpace, aux := 1 }

theorem test_held_queue_parks :
    let p := after (.schedule relative twoSteps) (fetching 5 (fullQueue 3000 [9000, 9500] [9800] none))
    (p.queue 5).state = .holding ∧ (p.queue 5).hold = some parked ∧ p.inUse 5 = 3 ∧ (p.cq 2).reserved = 1 ∧
      p.posting.writeList = [] := by decide +kernel

theorem test_held_queue_freed_by_a_cancel :
    let p := after (.cancelChannel { plain with time := 8000 } 10)
      (fetching 0 (fullQueue 3400 [9000, 9500] [9800] (some parked)))
    p.timeline 10 = [] ∧ p.inUse 5 = 1 ∧ (p.queue 5).hold = some parked ∧
      p.posting.writeList = [.completion 0 { queue := 0, id := 7, status := .ok, aux := 0, drops := 0, value := 2 }] := by
  decide +kernel

theorem test_held_queue_retry :
    let p := after .fetchGrant ((((fullQueue 3410 [] [9800] (some parked)).modCq 2 fun n =>
      { n with reserved := 1 }).modQueue 0 fun q => { q with tail := 0 }).modQueue 1 fun q => { q with tail := 0 })
    (p.queue 5).state = .active ∧ (p.queue 5).hold = none ∧ p.inUse 5 = 3 ∧ (p.cq 2).reserved = 0 ∧
      (p.timeline 12).map Machine.Step.effective = [3910, 4010] ∧ p.command.path = .free ∧
      p.posting.writeList = [.completion 2 { queue := 5, id := 51, status := .ok, aux := 2, drops := 0, value := 3410 }] := by
  decide +kernel

/-! ## The HALT of section 12.8 -/

/-- The part of section 12.8 before the HALT at 60,000. -/
def beforeHalt : Part :=
  let entry (id total executed remaining : Nat) : TableEntry :=
    { queue := 2, id := BitVec.ofNat 16 id, cq := 0, total := total, executed := executed, late := false, drops := 0,
      remaining := remaining, lastTime := 0 }
  ((((((((((running.modClock fun c => { c with time := 60000 }).modQueue 0 fun q => { q with state := .disabled }).modQueue 4
    fun _ => { running.queue 0 with state := .holding, hold := some { parked with header := { relative with id := 30 } } }).modCq
      0 fun n => { n with tail := 5, reserved := 3 }).setTimeline 2 [single 70000 .mark (some 0)]).setTimeline 20
        [single 70000 .mark (some 0)]).setTimeline 21 [single 70000 .mark (some 1)]).setTimeline 22
          [single 70000 .mark none]).setEntry 0 (some (entry 7 3 1 2))).setEntry 1 (some (entry 8 1 0 1))).modDomain 0 fun d =>
            { d with state := .armed, members := 0xC }

theorem test_halt_drains :
    let p := after .halt { beforeHalt with
      output := { beforeHalt.output with channels := beforeHalt.output.channels.map fun c => { c with safe := .low } } }
    p.engine.state = .halting ∧ p.storedSteps = 0 ∧ (p.cq 0).reserved = 0 ∧ p.waitingCompletions 0 = 3 ∧
      (p.domain 0).state = .tripped ∧ (p.channel 2).force = some .domain ∧
      p.channel 20 = { level := .low, safe := .low, force := some .engine, waiting := none } ∧
      p.posting.writeList =
        [.completion 0 { queue := 4, id := 30, status := .halted, aux := 0, drops := 0, value := 60000 },
         .completion 0 { queue := 2, id := 7, status := .partially, aux := 1, drops := DropCause.halted.mask, value := 60000 },
         .completion 0 { queue := 2, id := 8, status := .abandoned, aux := 0, drops := DropCause.halted.mask, value := 60000 },
         .notice { time := 60000, body := .domainTripped 0 .halt .discard 0 0xC 0 0 },
         .notice { time := 60000, body := .domainSafe 0 (1#21 <<< Cause.halt.number.val) 60000 }] := by decide +kernel

/-! ## Other single steps -/

/-- Section 12.1 and R195: IDENT reads as the part number and version, and STATE carries the codes of the engine record. -/
theorem test_registers_read :
    readRegister running 0x00 = 0x24400001 ∧ (readRegister running 0x14).extractLsb' 0 4 = 2 ∧
      readRegister { running with resetAsserted := true } 0x00 = 0 := by decide +kernel

/-- R105: the timebase holds at its largest value. -/
theorem test_tick_counts_and_holds :
    (after .timebaseTick running).clock.time = 1 ∧
      (after .timebaseTick (running.modClock fun c => { c with time := maxTime })).clock.time = maxTime := by decide +kernel

/-- R108, with BACKUP active: a tick is a period the detector counts, up to 32, and below 32 the indication is not lost. -/
theorem test_backup_periods_are_counted :
    let at_ (count : Nat) : Part := running.modClock fun c =>
      { c with source := .backup, primaryPresent := true, detectorCount := count }
    (after .timebaseTick (at_ 31)).clock.detectorCount = 32 ∧ (after .timebaseTick (at_ 32)).clock.detectorCount = 32 ∧
      (after .primaryIndicationAbsent (at_ 31)).clock.primaryPresent = true ∧
      (after .primaryIndicationAbsent (at_ 32)).clock.primaryPresent = false := by decide +kernel

/-- R108, R109, R124: with PRIMARY active the 32nd period after reset, and no earlier one, lets the primary-stop event occur. -/
theorem test_primary_stop_at_the_32nd_period :
    let stopped (count : Nat) : Part :=
      match step (at_ (Part.reset.modClock fun c => { c with detectorCount := count })) with
      | .next s => after .primaryStop s.part
      | _ => Part.reset
    (stopped 30).clock.source = .primary ∧ (stopped 31).clock.source = .backup := by decide +kernel

/-- R154: the phase toggles as the tail returns to 0. -/
theorem test_completion_posted_at_the_last_entry :
    let c : Completion := { queue := 0, id := 0, status := .ok, aux := 0, drops := 0, value := 0 }
    let p := after .completionWriteAnswered { (running.modCq 0 fun n => { n with tail := 15, threshold := 2 }) with
      posting := { (running.modCq 0 fun n => { n with tail := 15, threshold := 2 }).posting with
        writeList := [.completion 0 c] }
      monitor := { running.monitor with posting := some { recordFetch with purpose := .completionWrite 0 } } }
    ((p.cq 0).tail, (p.cq 0).phase, (p.cq 0).unsignalled) = (0, false, 1) ∧ p.posting.causes = 0 ∧
      (p.cq 0).timer = some 1024 ∧ p.posting.writeList = [] := by decide +kernel

/-! ## Witnesses

Each theorem shows concrete states and operands that meet the hypotheses of the statement it is named after, all
together, for each of its clauses. -/

/-- Every command answers a next state. -/
theorem exec_next (i : Instr) (s : State) : ∃ s', exec i s = .next s' := by
  by_cases h : i = .hardReset
  · subst h; exact ⟨_, rfl⟩
  by_cases h' : i = .resetnNegated
  · subst h'; exact ⟨_, rfl⟩
  rw [exec_eq_event h h']
  unfold event
  split
  · exact ⟨_, rfl⟩
  · split <;> exact ⟨_, rfl⟩

theorem running_ordered : running.timelinesOrdered := by simp only [Part.timelinesOrdered]; decide +kernel

/-- The running part in another engine state, and with a posting write of an item in flight. -/
def engineIn (state : EngineState) : Part := running.modEngine fun e => { e with state := state }
def aCompletion : Completion := { queue := 0, id := 0, status := .ok, aux := 0, drops := 0, value := 0 }
def aNotice : Notice := { time := 0, body := .domainSafe 0 0 0 }
def posting (purpose : AccessPurpose) (item : Item) : Part :=
  { running with
    posting := { running.posting with writeList := [item] }
    monitor := { running.monitor with posting := some { recordFetch with purpose := purpose } } }

theorem witness_StepTakesTheFrontCommand : (at_ running).pending = [] := by decide

/-- A part in which no channel leaves the active level, and one in which channel 0 does: dead time of 20 ns from time 0. -/
theorem witness_SoftResetLeaves :
    running.resetAsserted = false ∧
      (let leaving := (bridge 0 .high .low 0 [] [] 0 0).modChannel 0 fun c => { c with safe := .low }
       leaving.resetAsserted = false ∧ (leaving.pair 0).isActive (leaving.channel (channelOf 0 .lower)).level = true ∧
         (leaving.channel (channelOf 0 .lower)).safe ≠ (leaving.channel (channelOf 0 .lower)).level ∧
         ((after .softReset leaving).pair 0).deadTimeEnd = 20) := by
  decide +kernel

theorem witness_ResetnPin :
    ({ running with resetAsserted := true } : Part).resetAsserted = true ∧ Instr.start ≠ .hardReset ∧
      Instr.start ≠ .resetnNegated := by decide +kernel

theorem witness_StartRequestsTheBlock :
    (Part.reset.resetAsserted = false ∧ Part.reset.posting.fault = none ∧ Part.reset.engine.state = .off) ∧
      let p := (posting .noticeWrite (.notice aNotice)).modEngine fun e => { e with state := .halted }
      p.resetAsserted = false ∧ p.posting.fault = none ∧ p.engine.state = .halted ∧ p.monitor.posting.isSome = true := by
  decide +kernel

theorem witness_RegisterWriteRefused_control :
    (running.resetAsserted = false ∧ running.settled = true ∧ running.engine.state ≠ .off ∧ running.engine.state ≠ .halted) ∧
      (Part.reset.resetAsserted = false ∧ Part.reset.settled = true ∧ Part.reset.engine.state ≠ .running) ∧
      (0 : BitVec 4) ≠ 1 ∧ (0 : BitVec 4) ≠ 2 ∧ (0 : BitVec 4) ≠ 3 ∧ (4 : BitVec 4) ≠ 1 ∧ (4 : BitVec 4) ≠ 2 ∧
      (4 : BitVec 4) ≠ 3 := by decide +kernel

theorem witness_RegisterWriteRefused_notify :
    8 ≤ (8 : BitVec 4).toNat ∧ (running.queue (Fin.ofNat 8 (7 : BitVec 4).toNat)).state = .disabled ∧
      ((running.modQueue 0 fun q => { q with state := .error }).queue 0).state = .error ∧
      ((running.modQueue 0 fun q => { q with state := .error }).settled = true) ∧
      (4 ≤ (4 : BitVec 4).toNat ∧ (4 : BitVec 4).toNat ≠ 8) ∧ (running.cq 3).enabled = false ∧
      (running.cq 0).size ≤ (16 : BitVec 16).toNat ∧
      ((running.cq 0).tail + (running.cq 0).size - (running.cq 0).head) % (running.cq 0).size <
        ((1 : BitVec 16).toNat + (running.cq 0).size - (running.cq 0).head) % (running.cq 0).size ∧
      running.posting.ring.size ≤ (8 : BitVec 16).toNat ∧ (engineIn .fatal).settled = true ∧
      (engineIn .fatal).engine.state ≠ .halted := by decide +kernel

/-- Among the channels of no domain: all of the first part; channel 20 of the second; and channel 1 of the third, whose safe
level is the active level of its pair, so that it is left waiting. -/
theorem witness_HaltStopsTheEngine :
    running.awake = true ∧ running.engine.state = .running ∧ beforeHalt.awake = true ∧
      beforeHalt.engine.state = .running ∧ (∀ d : Fin 8, (beforeHalt.domain d).members.getLsbD 20 = false) ∧
      (let p := (bridge 0 .high .low 0 [] [] 0 0).modChannel 1 fun c => { c with safe := .high }
       p.awake = true ∧ p.engine.state = .running ∧ (∀ d : Fin 8, (p.domain d).members.getLsbD 1 = false) ∧
         ((after .halt p).channel 1).waiting = some { level := .high, kind := .engineForce }) := by decide +kernel

theorem witness_HaltingEndsWhenDrained :
    let drained (p : Part) : Bool :=
      p.posting.fault.isNone && p.engine.state == .halting && (List.finRange 8).all (fun d => (p.domain d).state != .tripping) &&
        p.posting.writeList.isEmpty && p.monitor.posting.isNone && p.posting.ring.pending.isEmpty && p.command.path == .free
    drained (engineIn .halting) = true ∧ drained (posting .noticeWrite (.notice aNotice)) = false ∧
      (posting .noticeWrite (.notice aNotice)).posting.fault = none := by decide +kernel

/-- A Configuration Block with one queue, one completion queue and one window, at the least values the tests take. -/
def goodBlock : Block :=
  let empty := readBlock (List.replicate 384 0)
  { empty with
    magic := 0x51432440, version := 1, timeout := 1, noticeEnabled := true, noticeBase := 32, noticeSize := 8
    queues := empty.queues.set 0 { empty.queues[0] with enabled := true, base := 64, size := 8, quota := 1024, cq := 3 }
    cqs := empty.cqs.set 3 { empty.cqs[3] with enabled := true, base := 16, size := 4096, threshold := 255 }
    windows := empty.windows.set 7 { empty.windows[7] with base := 2 ^ 64 - 4096, length := 4096, permissions := 3 } }

theorem witness_BlockTestsInOrder_magic :
    (readBlock (List.replicate 384 0)).magic ≠ 0x51432440 ∧
      ({ goodBlock with version := 2 } : Block).magic = 0x51432440 ∧ ({ goodBlock with version := 2 } : Block).version ≠ 1 := by
  decide +kernel

/-- The four passing conditions of the good block, its rings being of 2^3 and 2^12 entries. -/
theorem witness_BlockTestsInOrder_passing :
    let b := goodBlock
    (∀ n : Fin 8, b.queues[n].enabled = true →
      (3 ≤ 3 ∧ 2 ^ 3 ≤ 4096 ∧ b.queues[n].size = 2 ^ 3) ∧ b.queues[n].base % 64 = 0 ∧
        b.queues[n].base + 64 * b.queues[n].size ≤ 2 ^ 64 ∧ b.queues[n].quota ≤ 1024 ∧ b.queues[n].priority ≤ 1) ∧
    (∀ n : Fin 4, b.cqs[n].enabled = true →
      (3 ≤ 12 ∧ 2 ^ 12 ≤ 4096 ∧ b.cqs[n].size = 2 ^ 12) ∧ b.cqs[n].base % 16 = 0 ∧
        b.cqs[n].base + 16 * b.cqs[n].size ≤ 2 ^ 64 ∧ 1 ≤ b.cqs[n].threshold ∧ b.cqs[n].threshold ≤ 255) ∧
    (b.noticeEnabled = true →
      (3 ≤ 3 ∧ 2 ^ 3 ≤ 1024 ∧ b.noticeSize = 2 ^ 3) ∧ b.noticeBase % 32 = 0 ∧ b.noticeBase + 32 * b.noticeSize ≤ 2 ^ 64) ∧
    (∀ n : Fin 8, b.queues[n].enabled = true → b.queues[n].cq = 3 ∧ b.cqs[3].enabled = true) ∧
    1 ≤ b.timeout ∧ ∀ w : Fin 8, b.windows[w].length ≠ 0 →
      b.windows[w].base % 4096 = 0 ∧ b.windows[w].length % 4096 = 0 ∧
        b.windows[w].base + b.windows[w].length ≤ 2 ^ 64 ∧ b.windows[w].permissions.toNat < 4 := by decide +kernel

/-- Blocks that differ from the good one in one value, and pass every test before the one they fail. -/
theorem witness_BlockTestsInOrder_failing :
    ({ goodBlock with noticeBase := 1 } : Block).noticeBase % 32 ≠ 0 ∧
      ({ goodBlock with cqs := (readBlock (List.replicate 384 0)).cqs } : Block).cqs[3].enabled = false ∧
      ({ goodBlock with timeout := 0 } : Block).timeout < 1 ∧ goodBlock.loadFault = .none := by decide +kernel

/-- The bytes of a Configuration Block with the magic number, the version, a timeout of 1 and nothing enabled. -/
def emptyBlock : List Byte := [0x40, 0x24, 0x43, 0x51, 1, 0, 1, 0] ++ List.replicate 376 0
def loading : Part :=
  { engineIn .loading with
    monitor := { running.monitor with block := some { recordFetch with purpose := .blockRead, length := 384 } } }

theorem witness_ValidBlockIsLoaded :
    loading.resetAsserted = false ∧ loading.posting.fault = none ∧ loading.monitor.block.isSome = true ∧
      emptyBlock.length = 384 ∧ (readBlock emptyBlock).loadFault = .none := by decide +kernel

theorem witness_LoadFails :
    loading.resetAsserted = false ∧ loading.posting.fault = none ∧ loading.monitor.block.isSome = true ∧
      (List.replicate 384 (0 : Byte)).length = 384 ∧ (readBlock (List.replicate 384 0)).loadFault ≠ .none ∧
      (loading.monitor.block.map fun a => decide (a.limit ≤ a.timer)) = some true := by decide +kernel

theorem witness_RegisterWindow : running.resetAsserted = false ∧ running.settled = true := by decide +kernel

theorem witness_PostingFaultIsFatal :
    let p := posting (.completionWrite 0) (.completion 0 aCompletion)
    p.resetAsserted = false ∧ p.posting.abandoned = false ∧
      (p.monitor.posting.map fun a => decide (a.limit ≤ a.timer)) = some true ∧
      (posting .noticeWrite (.notice aNotice)).monitor.posting.isSome = true := by decide +kernel

/-- A write of each kind whose ring lies past the window's 2^20 bytes, and a fault kept. -/
theorem witness_PostingFaultIsFatal_violation :
    let outside (item : Item) : Part :=
      ((engineIn .halting).modCq 0 fun n => { n with base := 2 ^ 20 }).modPosting fun u =>
        { u with writeList := [item], ring := { u.ring with base := 2 ^ 20 } }
    let meets (p : Part) : Prop := p.isPosting = true ∧ p.posting.fault = none ∧ p.monitor.posting = none
    meets (outside (.completion 0 aCompletion)) ∧ (outside (.completion 0 aCompletion)).tailWritable 0 = false ∧
      meets (outside (.notice aNotice)) ∧ (outside (.notice aNotice)).noticeTailWritable = false ∧
      (outside (.notice aNotice)).issueNext.posting.fault = some (.noticeWriteViolation, .noticeRing) := by decide +kernel

theorem witness_FatalOnlyByAPostingWrite :
    running.writesAllowed = true ∧ running.engine.state ≠ .fatal ∧ Instr.halt ≠ .completionWriteAnswered ∧
      Instr.halt ≠ .noticeWriteAnswered ∧ Instr.halt ≠ .accessTimeout .postingUnit ∧
      Instr.halt ≠ .busErrorResponse .postingUnit ∧ ∃ s', exec .halt (at_ running) = .next s' := by
  refine ⟨?_, ?_, ?_, ?_, ?_, ?_, exec_next _ _⟩ <;> decide +kernel

/-- The running part with queue 0 holding a parked command. -/
def withHeld (held : Held) : Part :=
  ((running.modQueue 0 fun q => { q with state := .holding, hold := some held }).modCq 0 fun n => { n with reserved := 1 }).modQueue
    1 fun q => { q with tail := 0 }

theorem witness_QueueNotifications :
    (running.resetAsserted = false ∧ running.posting.fault = none ∧ running.engine.state = .running ∧
      (running.queue 0).state = .active ∧ (7 : BitVec 16).toNat < (running.queue 0).size ∧
      (running.queue 0).size ≤ (8 : BitVec 16).toNat) ∧
      ((withHeld parked).queue 0).state = .holding ∧ ((withHeld parked).queue 0).hold = some parked ∧
      (running.queue 0).state ≠ .disabled := by decide +kernel

/-- A completion queue in HALTED; the notice ring in RUNNING; and in HALTING with a notice still pending, and drained. -/
theorem witness_ConsumeMovesTheHead :
    let accepted (r : Part) (index : BitVec 16) : Prop :=
      r.resetAsserted = false ∧ r.writesAllowed = true ∧ r.posting.ring.enabled = true ∧
        index.toNat < r.posting.ring.size ∧
        (index.toNat + r.posting.ring.size - r.posting.ring.head) % r.posting.ring.size ≤ r.posting.ring.occupied
    let p := (engineIn .halted).modCq 0 fun n => { n with tail := 15 }
    let ring (state : EngineState) (pending : List Notice) : Part :=
      engineIn state |>.modPosting fun u => { u with ring := { u.ring with tail := 7, pending := pending } }
    (p.resetAsserted = false ∧ p.engine.state = .halted ∧ p.settled = true ∧ (p.cq 0).enabled = true ∧
      (15 : BitVec 16).toNat < (p.cq 0).size ∧
      ((15 : BitVec 16).toNat + (p.cq 0).size - (p.cq 0).head) % (p.cq 0).size ≤ (p.cq 0).occupied) ∧
      accepted (ring .running [aNotice]) 7 ∧ (ring .running [aNotice]).engine.state = .running ∧
      accepted (ring .halting [aNotice]) 7 ∧ accepted (ring .halting []) 7 ∧ (ring .halting []).engine.state = .halting ∧
      (ring .halting []).posting.writeList = [] ∧ (ring .halting []).command.path = .free := by
  decide +kernel

theorem witness_ArbiterGrantsInTurn :
    (running.granted = some 1 ∧ (running.modQueue 1 fun q => { q with tail := 0 }).granted = some 0 ∧
      Part.reset.granted = none) ∧
      let credits (n : Nat) : Part := running.modCq 0 fun c => { c with reserved := n }
      (credits 14).eligible 0 = true ∧ (credits 15).eligible 0 = false := by decide +kernel

/-- The parked commands of the grant's witness: one that is admitted, and one with a channel outside 0 to 31. -/
def admissible : Held := { header := relative, command := .schedule twoSteps, status := .noSpace, aux := 1 }
def misfit : Held := { admissible with command := .schedule (schedule [entry 0 32 1]) }

theorem witness_GrantFetchesOrRetries_fetch :
    (running.resetAsserted = false ∧ running.posting.fault = none ∧ running.engine.state = .running ∧
      running.command.path = .free ∧ running.granted = some 1 ∧ (running.queue 1).state = .active ∧
      running.monitor.allows false ((running.queue 1).base + 64 * (running.queue 1).head) 64 = true) ∧
      let p := running.modQueue 1 fun q => { q with base := 2 ^ 20 - 56 }
      p.granted = some 1 ∧ p.monitor.allows false ((p.queue 1).base + 64 * (p.queue 1).head) 64 = false := by
  decide +kernel

theorem witness_GrantFetchesOrRetries_retry :
    let p := withHeld admissible
    (p.awake = true ∧ p.timelinesOrdered ∧ p.engine.state = .running ∧ p.command.path = .free ∧ p.granted = some 0 ∧
      (p.queue 0).state = .holding ∧ (p.queue 0).hold = some admissible ∧
      ((p.admissionTable 0 relative (countValid admissible.command) (inlineSteps admissible.command)).find?
        fun row => row.1) = none) ∧
      let p := withHeld misfit
      p.awake = true ∧ p.timelinesOrdered ∧ p.granted = some 0 ∧
      ((p.admissionTable 0 relative (countValid misfit.command) (inlineSteps misfit.command)).find?
        fun row => row.1) = some (true, .badField, 1) := by
  simp only [Part.timelinesOrdered]
  decide +kernel

/-- A record of a kind with zeros for its header and body. -/
def record (kind : Byte) : List Byte := kind :: List.replicate 63 0

theorem witness_CommonChecks_records :
    (record 0x14).length = 64 ∧ field (record 0x01) 0 1 = 0x01 ∧ field (record 0x14) 0 1 = 0x14 ∧
      (fetching 0 running).ready 0 = true ∧ field (record 0) 0 1 = 0 ∧ 0x14 < field (record 0x15) 0 1 := by decide +kernel

/-- A command of each configuration class. -/
def ofClass (cls : Fin 4) : Instr :=
  match cls with
  | 0 => .configurePair plain { pair := 0, enable := 0, polarity := 1, deadTime := 0 }
  | 1 => .disarmDomain plain 0
  | 2 => .clearFaultLatch plain 0
  | 3 => .restorePrimaryClock plain

theorem witness_CommonChecks_authority :
    let p := running.modQueue 0 fun q => { q with authority := 0 }
    (fetching 0 p).ready 0 = true ∧ (∀ cls : Fin 4, (p.queue 0).authority.getLsbD cls.val = false) ∧
      ∀ cls : Fin 4, (ofClass cls).record?.isSome = true := by decide +kernel

/-- The running part with a read of the command path in flight. -/
def reading (path : CommandPath) (a : Access) : Part :=
  { running with command := { running.command with path := path }, monitor := { running.monitor with command := some a } }

theorem witness_ReadsThatEndWithoutTheirData :
    let p := reading (.fetch 0 true) recordFetch
    let r := reading (.list 0 plain true) listRead
    (p.resetAsserted = false ∧ p.monitor.command = some recordFetch ∧ p.command.path = .fetch 0 true ∧
      (Instr.readTime plain).record?.isSome = true ∧ (record 0).length = 64 ∧ recordFetch.limit ≤ recordFetch.timer) ∧
      (r.monitor.command = some listRead ∧ r.command.path = .list 0 plain true ∧
        (List.replicate 16 (0 : Byte)).length = listRead.length ∧ listRead.limit ≤ listRead.timer) ∧
      (reading (.fetch 0 false) recordFetch).command.path = .fetch 0 false ∧
      (reading (.list 0 plain false) listRead).command.path = .list 0 plain false ∧ running.settled = true := by
  decide +kernel

theorem witness_CompletionsAreHandedOverAndIssued :
    (running.isPosting = true ∧ Part.reset.isPosting = false) ∧
      let p := { posting (.completionWrite 0) (.completion 0 aCompletion) with monitor := running.monitor }
      let r := { posting .noticeWrite (.notice aNotice) with monitor := running.monitor }
      (p.isPosting = true ∧ p.posting.fault = none ∧ p.monitor.posting = none ∧
        p.posting.writeList = [.completion 0 aCompletion] ∧ p.tailWritable 0 = true) ∧
        r.posting.writeList = [.notice aNotice] ∧ r.noticeTailWritable = true := by decide +kernel

theorem witness_HandedOverNotice :
    let room (p : Part) : Bool :=
      let r := p.posting.ring
      decide ((r.tail + r.size - r.head) % r.size + p.queuedNotices < r.size - 1)
    let full := running.modPosting fun u => { u with ring := { u.ring with tail := 7, pending := List.replicate 15 aNotice } }
    Part.reset.isPosting = false ∧ (running.isPosting = true ∧ running.posting.ring.enabled = true ∧ room running = true ∧
      running.posting.ring.pending = []) ∧ room full = false ∧ full.posting.ring.pending.length < 16 ∧
      16 ≤ (List.replicate 16 aNotice).length := by decide +kernel

theorem witness_PostedRecordsAndInterrupts :
    let p := posting (.completionWrite 0) (.completion 0 aCompletion)
    let r := posting .noticeWrite (.notice aNotice)
    let timed := running.modCq 0 fun n => { n with timer := some 0, unsignalled := 1 }
    (p.resetAsserted = false ∧ p.monitor.posting.map Access.purpose = some (.completionWrite 0) ∧
      p.posting.abandoned = false) ∧ r.monitor.posting.map Access.purpose = some .noticeWrite ∧
      (p.modPosting fun u => { u with abandoned := true }).posting.abandoned = true ∧
      timed.resetAsserted = false ∧ timed.settled = true ∧ (timed.cq 0).timer = some 0 := by decide +kernel

/-- A command of one step whose channel is out of range, and one of two that is admitted. -/
def oneStep (channel : Nat) : ScheduleBody := schedule [entry 0 channel 1]

theorem witness_ScheduleIsAdmittedWhole :
    (∃ b, Instr.schedule deferred (oneStep 31) = .schedule deferred b ∧ Command.schedule (oneStep 31) = .schedule b) ∧
      (fetching 0 running).ready 0 = true ∧ (fetching 0 running).timelinesOrdered ∧
      (((fetching 0 running).taken 0).admissionTable 0 deferred (countValid (.schedule (oneStep 31)))
        (inlineSteps (.schedule (oneStep 31)))).find? (fun row => row.1) = none := by
  refine ⟨⟨_, rfl, rfl⟩, ?_, running_ordered, ?_⟩ <;> decide +kernel

theorem witness_ScheduleIsRefusedOrParked :
    let p := fetching 1 (running.modQueue 1 fun q => { q with quota := 0 })
    ((fetching 0 running).ready 0 = true ∧
      (((fetching 0 running).taken 0).admissionTable 0 plain (countValid (.schedule (oneStep 32)))
        (inlineSteps (.schedule (oneStep 32)))).find? (fun row => row.1) = some (true, .badField, 1)) ∧
      p.ready 1 = true ∧ ((p.taken 1).queue 1).holdWhenFull = true ∧
      ((p.taken 1).admissionTable 1 plain (countValid (.schedule (oneStep 31)))
        (inlineSteps (.schedule (oneStep 31)))).find? (fun row => row.1) = some (true, .noSpace, 0) := by decide +kernel

theorem witness_ScheduleList :
    (fetching 0 running).ready 0 = true ∧
      let p := reading (.list 0 plain false) listRead
      (p.awake = true ∧ p.engine.state = .running ∧ p.timelinesOrdered ∧ p.command.path = .list 0 plain false ∧
        p.monitor.command = some listRead ∧ (List.replicate 16 (0 : Byte)).length = listRead.length) := by
  refine ⟨by decide +kernel, by decide +kernel, by decide +kernel, running_ordered, ?_, ?_, ?_⟩ <;> decide +kernel

theorem witness_CancelRemovesTheSelected :
    (fetching 0 running).ready 0 = true ∧ 32 ≤ (32 : BitVec 8).toNat ∧ (31 : BitVec 8).toNat < 32 ∧
      ((fetching 0 running).taken 0 |>.queue 0).mask.getLsbD (31 : BitVec 8).toNat = true ∧
      (((fetching 0 (running.modQueue 0 fun q => { q with mask := 1 })).taken 0).queue 0).mask.getLsbD
        (31 : BitVec 8).toNat = false := by decide +kernel

def dueTwo : Part :=
  (running.modClock fun c => { c with time := 5 }).setTimeline 4 [single 5 .driveHigh none, single 6 .driveLow none]

theorem witness_DueStepsAreExecuted :
    dueTwo.awake = true ∧ dueTwo.timelinesOrdered ∧ (dueTwo.pair (pairOf 4)).enabled = false ∧
      (dueTwo.channel 4).force = none ∧ (dueTwo.timeline 4).head?.map Machine.Step.effective = some 5 ∧
      5 ≤ dueTwo.clock.time := by
  simp only [Part.timelinesOrdered]
  decide +kernel

/-- The hypotheses of the guard's statement on channel c at time t, but for the one that says which case it is. -/
def guardMeets (p : Part) (c : Fin 32) (t : Nat) : Bool :=
  let k := pairOf c
  let active := (p.pair k).polarity.activeLevel
  p.awake && (p.pair k).enabled && (p.channel c).force.isNone &&
    (p.timeline c).head?.map Machine.Step.effective == some t && decide (t ≤ p.clock.time) &&
    ((p.channel (partnerOf c)).force.isSome || (p.timeline (partnerOf c)).all fun x => decide (t < x.effective)) &&
    finalLevel (p.channel c).level (batchAt t (p.timeline c)) == active && (p.channel c).level != active

/-- The partner active, the dead time running up to the next value, and the dead time over, in that order; a member of an
ARMED domain that selects CONTENTION; and a partner that waits for the active level at the dead-time end. -/
theorem witness_ActiveGoingStepMeetsTheGuard :
    let blocked := bridge 1000 .low .high 0 [high 1000] [] 4 0
    let watched := blocked.modDomain 3 fun d => { d with state := .armed, members := 3, sources := 1#18 <<< 17 }
    let waiting := (bridge 1000 .low .low 1000 [high 1000] [] 4 0).modChannel 1 fun c =>
      { c with force := some .engine, waiting := some { level := .high, kind := .engineForce } }
    (guardMeets blocked 0 1000 = true ∧ (blocked.channel (partnerOf 0)).level = .high) ∧
      guardMeets (bridge 1510 .low .low 1511 [high 1510] [] 4 0) 0 1510 = true ∧
      guardMeets (bridge 1520 .low .low 1520 [high 1520] [] 4 0) 0 1520 = true ∧
      (guardMeets watched 0 1000 = true ∧ watched.domainsApart ∧ (watched.domain 3).members.getLsbD 0 = true ∧
        (watched.domain 3).sources.getLsbD 17 = true ∧ (watched.domain 3).state = .armed) ∧
      guardMeets waiting 0 1000 = true ∧ (waiting.pair 0).deadTimeEnd ≤ waiting.clock.time := by
  simp only [Part.domainsApart]
  decide +kernel

/-- The entries of the four rows of R55. -/
def entryOf (executed total : Nat) (late : Bool) : TableEntry :=
  { queue := 0, id := 0, cq := 0, total := total, executed := executed, late := late, drops := 0, remaining := 1, lastTime := 0 }

theorem witness_FinalStatusOfADeferredCommand :
    (entryOf 2 2 false).executed ≤ (entryOf 2 2 false).total ∧ (entryOf 2 2 true).late = true ∧
      (1 ≤ (entryOf 1 2 true).executed ∧ (entryOf 1 2 true).executed < (entryOf 1 2 true).total) ∧
      ((entryOf 0 1 true).executed = 0 ∧ (entryOf 0 1 true).total = 1) := by decide

theorem witness_TrackerTakesAReport :
    let p := running.setEntry 0 (some (entryOf 0 1 false))
    (high 0).link = some 0 ∧ p.entry 0 = some (entryOf 0 1 false) ∧ 1 ≤ (entryOf 0 1 false).remaining := by decide +kernel

/-- A pair of some levels, and the same with the pair enabled and a dead time. -/
def viewOf (enabled : Bool) (lower upper : Level) (deadTime : Nat) : PairView :=
  { lower := { Channel.reset with level := lower }, upper := { Channel.reset with level := upper }
    pair := { enabled := enabled, polarity := .activeHigh, deadTime := deadTime, deadTimeEnd := 0 } }

theorem witness_DisabledPairAppliesAtOnce : (viewOf false .low .low 0).pair.enabled = false := by decide

/-- Every clause: the channels inactive, either of them active, with the dead times 0 and 1, and with dead time running. The
last clause's moves: a channel keeping the active level beside one that stays inactive, both staying inactive, and one leaving
the active level. -/
theorem witness_GuardTakesBothScheduledParts :
    let meets (v : PairView) : Prop := v.pair.enabled = true ∧ v.lower.waiting = none ∧ v.upper.waiting = none ∧
      ¬(v.lower.level = v.pair.polarity.activeLevel ∧ v.upper.level = v.pair.polarity.activeLevel)
    let running := viewOf true .low .low 1
    meets (viewOf true .low .low 0) ∧ meets (viewOf true .high .low 0) ∧ meets (viewOf true .high .low 1) ∧
      meets (viewOf true .low .high 0) ∧ meets (viewOf true .low .high 1) ∧
      meets { running with pair := { running.pair with deadTimeEnd := 5 } } ∧
      (viewOf true .high .low 1).pair.polarity.activeLevel = .high ∧
      (let ends (v : PairView) (t : Nat) (lo up : Level) : Nat :=
         (v.batch t (some { level := lo, kind := .step }) (some { level := up, kind := .step })).view.pair.deadTimeEnd
       ends (viewOf true .high .low 1) 7 .high .low = 0 ∧ ends (viewOf true .low .low 1) 7 .low .low = 0 ∧
         ends (viewOf true .high .low 1) 7 .low .low = 8 ∧ ends (viewOf true .low .high 1) (2 ^ 64 - 1) .low .low = 2 ^ 64 - 1) := by
  decide +kernel

/-- Channel 1's DOMAIN SAFE request waits in a TRIPPING domain of its one immediate member. -/
def expiring : Part :=
  ((bridge 1520 .low .low 1520 [] [] 4 0).modChannel 1 fun c =>
    { c with force := some .domain, waiting := some { level := .high, kind := .domainSafe 3 none } }).modDomain 3 fun d =>
      { d with state := .tripping, members := 3, progress :=
        [{ channel := 0, entry := none, state := .done }, { channel := 1, entry := none, state := .waitingOnPartner }] }

theorem witness_DeadTimeExpiryAppliesTheWaiting :
    expiring.awake = true ∧ (expiring.pair 0).deadTimeEnd ≤ expiring.clock.time ∧
      (expiring.channel (channelOf 0 .upper)).waiting = some { level := .high, kind := .domainSafe 3 none } ∧
      (let p := after (.deadTimeExpiry 0) expiring
       (p.channel (channelOf 0 .upper)).waiting = none ∧ (p.domain 3).state = .tripped) ∧
      (expiring.domain 3).state = .tripping := by decide +kernel

/-- Pair 0 as a queue with every authority finds it: channel 0 inactive, its partner inactive and safe at LOW. -/
def configurable (deadTimeEnd : Nat) : Part :=
  fetching 0 ((bridge 1000 .low .low deadTimeEnd [] [] 4 0).modChannel 1 fun c => { c with safe := .low })
def channelBody (channel safe idle : Nat) : ChannelBody :=
  { channel := BitVec.ofNat 8 channel, safeLevel := BitVec.ofNat 8 safe, idleLevel := BitVec.ofNat 8 idle }

/-- A refusal; and, accepted, an idle level kept, one that waits for the dead-time end, and one applied at it. -/
theorem witness_ConfigureChannelSetsTheLevels :
    let ready (p : Part) : Prop := p.ready 0 = true ∧ (p.queue 0).authority.getLsbD 0 = true
    let refusal (p : Part) (b : ChannelBody) := ((p.taken 0).channelTable 0 b).find? fun row => row.1
    (ready (configurable 0) ∧ refusal (configurable 0) (channelBody 32 1 1) = some (true, .badField, 1)) ∧
      refusal (configurable 0) (channelBody 31 1 4) = none ∧ Level.ofCode (channelBody 31 1 4).safeLevel.toNat = some .high ∧
      (ready (configurable 1001) ∧ refusal (configurable 1001) (channelBody 0 2 1) = none ∧
        ((configurable 1001).taken 0).clock.time < ((configurable 1001).pair 0).deadTimeEnd) ∧
      ready (configurable 1000) ∧ refusal (configurable 1000) (channelBody 0 2 1) = none ∧
      Level.ofCode (channelBody 0 2 1).idleLevel.toNat = some .high := by decide +kernel

/-- A fetch of a queue with every authority: what the statements about an arrived command ask. -/
theorem witness_arrivedCommands :
    (fetching 0 running).ready 0 = true ∧ ∀ cls : Fin 4, ((fetching 0 running).queue 0).authority.getLsbD cls.val = true := by
  decide +kernel

/-- The hypotheses; and a pair that is disabled 5 ticks before the end of time, as its channel leaves the active level. -/
theorem witness_ConfigurePairSetsTheRecord :
    ((configurable 0).ready 0 = true ∧ ((configurable 0).queue 0).authority.getLsbD 0 = true) ∧
      let p := after (.configurePair plain { pair := 0, enable := 0, polarity := 1, deadTime := 20 })
        (fetching 0 (bridge (2 ^ 64 - 6) .high .low 0 [] [] 0 0))
      (p.pair 0).enabled = false ∧ (p.pair 0).deadTimeEnd = 2 ^ 64 - 1 := by decide +kernel

theorem witness_QueriesReport :
    (configurable 0).ready 0 = true ∧
      ((configurable 0).modChannel 4 fun c => { c with force := some .engine }).ready 0 = true := by decide +kernel

theorem witness_DomainConfiguration :
    (fetching 0 running).ready 0 = true ∧ ((fetching 0 running).queue 0).authority.getLsbD 1 = true ∧
      (SequenceBody.wellFormed { domain := 7, entryCount := 8, entries := List.replicate 8 { offset := 0, channel := 31 } }) =
        true := by decide +kernel

theorem witness_ArmAndDisarm :
    (fetching 0 running).ready 0 = true ∧ ((fetching 0 running).queue 0).authority.getLsbD 1 = true := by decide +kernel

/-- A fetch with domain 2 of section 12.6 in some state. -/
def withDomain (state : DomainState) : Part := fetching 1 (holding 8150 state .low)

theorem witness_TripDomainOffersSoftware :
    (((fetching 1 contended).ready 1 = true ∧ ((fetching 1 contended).domain 2).contentionWaits = true)) ∧ ((withDomain .armed).ready 1 = true ∧ ((withDomain .armed).domain 2).state = .armed) ∧
      ((withDomain .tripped).ready 1 = true ∧ ((withDomain .tripped).domain 2).state = .tripped) ∧
      (withDomain .tripping).ready 1 = true ∧ ((withDomain .tripping).domain 2).state = .tripping := by decide +kernel

/-- A HOLD domain and a DISCARD domain; each has a member, and neither a sequence entry for it. -/
theorem witness_TripForcesAndDrives :
    let p := holding 7850 .armed .high
    let r := p.modDomain 2 fun d => { d with disposition := .discard }
    (p.domain 2).members.getLsbD (16 : Fin 32).val = true ∧ (p.domain 2).sequence = [] ∧ (p.domain 2).disposition = .hold ∧
      (r.domain 2).disposition = .discard ∧ (r.domain 2).members.getLsbD (15 : Fin 32).val = false := by decide +kernel

theorem witness_ReleaseReturnsTheMembers :
    let table (p : Part) (domain : BitVec 8) := ((p.taken 1).releaseTable domain).find? fun row => row.1
    ((withDomain .tripped).ready 1 = true ∧ ((withDomain .tripped).queue 1).authority.getLsbD 1 = true ∧
      table (withDomain .tripped) 2 = none) ∧ table (withDomain .armed) 2 = some (true, .wrongState, 0) ∧
      table (withDomain .tripped) 8 = some (true, .badField, 1) := by decide +kernel

/-- A step at the release, a single one before it, and a repeating one that is carried forward. -/
theorem witness_HeldStepAtARelease :
    8150 ≤ (high 8150).effective ∧ ((high 8149).effective < 8150 ∧ (high 8149).body = .single .driveHigh) ∧
      1 ≤ (toggling 1 .b).cycles := by decide

/-- Domain 2 TRIPPING since 8150, with two entries of its sequence at offsets 0 and 5, the second due. -/
def sequenced : Part :=
  (holding 8155 .tripping .low).modDomain 2 fun d =>
    { d with tripTime := 8150, sequence := [{ channel := 16, offset := 0 }, { channel := 17, offset := 5 }]
             progress := [{ channel := 16, entry := some 1, state := .done }, { channel := 17, entry := some 2, state := .pending }] }

theorem witness_SafeSequenceEntryIsMade :
    sequenced.awake = true ∧
      let before := sequenced.domain 2
      before.state = .tripping ∧ before.sequence[1]? = some { channel := 17, offset := 5 } ∧
        min (before.tripTime + 5) maxTime ≤ sequenced.clock.time ∧
        (before.progress.find? fun x => x.entry = some (1 + 1)).map ProgressPart.state = some .pending ∧
        ∀ m ≤ 1, (before.progress.find? fun x => x.entry = some m).map ProgressPart.state ≠ some .pending := by decide +kernel

theorem witness_FaultInputCommands :
    (fetching 0 running).ready 0 = true ∧ ((fetching 0 running).queue 0).authority.getLsbD 2 = true := by decide +kernel

/-- A sample of an ACTIVE HIGH input that changes nothing, and one that begins the active condition. -/
theorem witness_FaultInputSamples :
    let p := holding 7850 .armed .high
    (p.resetAsserted = false ∧ p.settled = true ∧ (p.input 5).enabled = true ∧ (p.input 5).interval ≤ (p.input 5).spacing ∧
      (p.input 5).polarity = .activeHigh ∧ (p.input 5).filtered = false) ∧
      p.awake = true ∧ (p.input 5).active = false ∧ (p.input 5).run + 1 = (p.input 5).filterCount := by decide +kernel

/-- A part with an open window of the supervisor in a state, and a reference timer. -/
def measuring (state : SupervisorState) (edges refTimer : Nat) : Part :=
  running.modSupervisor fun x =>
    { x with state := state, windowLength := 2, lowerLimit := 5, upperLimit := 9, failCount := 1, referenceTimeout := 4,
             failAction := some .switchToBackup,
             window := some { isOpen := true, edges := edges, ticks := 10, refTimer := refTimer } }

theorem witness_TickCountsEveryInterval :
    running.resetAsserted = false ∧ running.settled = true ∧ (∀ d : Fin 8, (running.domain d).contentionWaits = false) ∧
      (let unselected := contended.modDomain 2 fun d => { d with sources := 0x20 }
       contended.awake = true ∧ contended.clock.time < 2 ^ 64 - 1 ∧ (contended.domain 2).contentionWaits = true ∧
         (contended.domain 2).state = .armed ∧ (contended.domain 2).sources.getLsbD 17 = true ∧
         unselected.awake = true ∧ (unselected.domain 2).sources.getLsbD 17 = false) ∧
      (measuring .measuring 0 0).clock.supervisor.window.isSome = true ∧ (measuring .measuring 0 0).settled = true ∧
      (reading (.fetch 0 false) recordFetch).monitor.command = some recordFetch ∧ loading.monitor.block.isSome = true ∧
      (posting .noticeWrite (.notice aNotice)).monitor.posting.isSome = true := by decide +kernel

theorem witness_TimeNeverDecreases :
    Instr.timebaseTick ≠ .hardReset ∧ Instr.halt ≠ .hardReset ∧ Instr.halt ≠ .timebaseTick ∧
      ∃ s', exec .halt (at_ running) = .next s' := by
  refine ⟨?_, ?_, ?_, exec_next _ _⟩ <;> decide

theorem witness_ClockPinEdges :
    (running.resetAsserted = false ∧ running.settled = true ∧
      running.clock.detectorCount < 32 ∧
      (let p := running.modClock fun c => { c with source := .backup, detectorCount := 32 }
       p.settled = true ∧ p.clock.source = .backup ∧ 32 ≤ p.clock.detectorCount)) ∧
      let p := measuring .settling 0 0
      (p.settled = true ∧ p.clock.supervisor.state = .settling ∧
        p.clock.supervisor.window = some { isOpen := true, edges := 0, ticks := 10, refTimer := 0 } ∧
        0 + 1 < p.clock.supervisor.windowLength) ∧
      (measuring .measuring 0 0).clock.supervisor.state = .measuring := by decide +kernel

theorem witness_PrimaryStopSwitchesToBackup :
    let meets (p : Part) : Prop := p.awake = true ∧ p.clock.source = .primary ∧ 32 ≤ p.clock.detectorCount
    let stopped (p : Part) : Part := p.modClock fun c => { c with detectorCount := 32 }
    (meets (stopped running) ∧ (stopped running).clock.supervisor.state = .disabled) ∧
      meets (stopped (measuring .measuring 0 0)) ∧
      (meets (stopped (measuring .settling 0 0)) ∧ (measuring .settling 0 0).clock.supervisor.state = .settling) ∧
      meets (stopped (measuring .failed 0 0)) ∧ running.clock.detectorCount < 32 ∧
      (running.modClock fun c => { c with source := .backup }).clock.source = .backup := by
  decide +kernel

/-- The closing edge of a window, with each of the three verdicts, and the reference timer at its limit, in both states and with a
window that waits for its opening edge. -/
theorem witness_WindowEndGivesItsVerdict :
    let p := measuring .measuring 1 4
    let w : SupervisorWindow := { isOpen := true, edges := 1, ticks := 10, refTimer := 4 }
    (p.awake = true ∧ p.clock.supervisor.window = some w ∧ p.clock.supervisor.windowLength ≤ w.edges + 1 ∧
      p.clock.supervisor.upperLimit < w.ticks ∧ p.clock.supervisor.referenceTimeout ≤ w.refTimer) ∧
      (let low := p.modSupervisor fun x => { x with window := some { w with ticks := 4 } }
       low.awake = true ∧ 4 < low.clock.supervisor.lowerLimit) ∧
      (let within := p.modSupervisor fun x => { x with window := some { w with ticks := 9 } }
       within.awake = true ∧ ¬within.clock.supervisor.upperLimit < 9 ∧ ¬9 < within.clock.supervisor.lowerLimit) ∧
      (let waits := p.modSupervisor fun x => { x with window := some { w with isOpen := false } }
       waits.awake = true ∧ waits.clock.supervisor.referenceTimeout ≤ w.refTimer) ∧
      (measuring .settling 1 4).awake = true ∧ (measuring .settling 1 4).clock.supervisor.state = .settling ∧
      (p.clock.source = .primary ∧ p.clock.supervisor.failCount = p.clock.supervisor.bad + 1 ∧
        p.clock.supervisor.failAction = some .switchToBackup) := by
  decide +kernel

theorem witness_ClockCommands :
    (fetching 0 running).ready 0 = true ∧ ((fetching 0 running).queue 0).authority.getLsbD 3 = true := by decide +kernel

/-- A part with steps, an enabled pair, a domain and a notice in hand, and a command waiting: the invariants hold of it. -/
def busy : State := { part := expiring.setTimeline 4 [single 5 .mark none], pending := [.timebaseTick] }

theorem step_next (s : State) : ∃ s', step s = .next s' := by
  unfold step
  split
  · exact ⟨_, rfl⟩
  · exact exec_next _ _

theorem witness_PairsAreNeverBothActive : busy.part.pairsSafe = true ∧ ∃ s', step busy = .next s' :=
  ⟨by decide +kernel, step_next _⟩

theorem witness_TimelinesStayOrdered : busy.part.timelinesOrdered ∧ ∃ s', step busy = .next s' :=
  ⟨by simp only [Part.timelinesOrdered]; decide +kernel, step_next _⟩

theorem witness_QuotasAreKept :
    busy.part.quotasKept ∧ busy.part.storeBounded ∧ ∃ s', step busy = .next s' :=
  ⟨by simp only [Part.quotasKept]; decide +kernel, by simp only [Part.storeBounded]; decide +kernel, step_next _⟩

theorem witness_DomainsStayApart : busy.part.domainsApart ∧ ∃ s', step busy = .next s' :=
  ⟨by simp only [Part.domainsApart]; decide +kernel, step_next _⟩

theorem witness_NoticesStayBounded : busy.part.noticesBounded ∧ ∃ s', step busy = .next s' :=
  ⟨by simp only [Part.noticesBounded]; decide +kernel, step_next _⟩

end Sys2Proof.Tests
end

section
/-!
The two laws of the step store that every command keeps: the order of each timeline (R5), and the counts of stored steps (R1, R4).
-/

namespace Sys2Proof.Machine

namespace Part

variable {W : Fin 4 → Prop} {L R : Prop} {p p' : Part}

/-! ### What a change does to a timeline -/

theorem thins_of_timelines (h : p'.timelines = p.timelines) (c : Fin 32) : Thins (p.timeline c) (p'.timeline c) := by
  unfold timeline
  rw [h]
  exact Thins.refl _

theorem Thins.nil {tl tl' : List Step} (h : Thins tl tl') (e : tl = []) : tl' = [] :=
  List.length_eq_zero_iff.1 (Nat.le_zero.1 (by simpa [e] using h.total))

/-- A move adds no step to any timeline. -/
theorem Move.thins (m : Move W p p') (c : Fin 32) : Thins (p.timeline c) (p'.timeline c) := by
  cases m with
  | timeline c' tl h =>
    rw [timeline_setTimeline]
    split
    · rename_i e; subst e; exact h
    · exact Thins.refl _
  | completion n x _ => exact thins_of_timelines (handCompletion_timelines ..) c
  | notice n => exact thins_of_timelines (handNotice_timelines ..) c
  | resolve o s => exact thins_of_timelines (resolve_timelines ..) c
  | channel | guarded | expired | domain | counted => exact Thins.refl _

/-- A change adds no step to any timeline, or places one step, which only some commands may. -/
theorem Change.thins_or_place (m : Change L R p p') :
    (∀ c, Thins (p.timeline c) (p'.timeline c)) ∨
      R ∧ ∃ c s, p' = p.setTimeline c (placeStep s (p.timeline c)) ∧ p.inUse s.origin < (p.queue s.origin).quota ∧
        p.storedSteps < Config.storeSlots := by
  cases m with
  | move m => exact .inl m.thins
  | plain _ _ thins => exact .inl thins
  | pair | members => exact .inl fun _ => Thins.refl _
  | place c s may quota slot => exact .inr ⟨may, c, s, rfl, quota, slot⟩

/-! ### The order of each timeline -/

theorem timelinesOrdered_of_thins (h : ∀ c, Thins (p.timeline c) (p'.timeline c)) (ho : p.timelinesOrdered) :
    p'.timelinesOrdered := fun c => (h c).ordered (ho c)

theorem timelinesOrdered_place (c : Fin 32) (s : Step) (ho : p.timelinesOrdered) :
    (p.setTimeline c (placeStep s (p.timeline c))).timelinesOrdered := fun c' => by
  rw [timeline_setTimeline]
  split
  · exact placeStep_ordered s (ho c)
  · exact ho c'

theorem Changes.timelinesOrdered (m : Changes L R p p') (ho : p.timelinesOrdered) : p'.timelinesOrdered :=
  m.keep (P := Part.timelinesOrdered) (fun _ _ m ho => by
    rcases m.thins_or_place with h | ⟨-, c, s, rfl, -⟩
    · exact timelinesOrdered_of_thins h ho
    · exact timelinesOrdered_place c s ho) ho

theorem timeline_hardReset (p : Part) (c : Fin 32) : p.hardReset.timeline c = [] := by
  simp [timeline, hardReset, Part.reset]

end Part

/-- What a step leaves: a period of the backup oscillator, a move of RESETn, nothing, or the effect of a command, settled. -/
theorem step_part {s s' : State} (h : step s = .next s') :
    s'.part = s.part.backupPeriod ∨ s'.part = s.part.hardReset ∨ s'.part = s.part.resetnNegated ∨ s'.part = s.part ∨
      ∃ i p, effect i s.part = some p ∧ s'.part = p.settle := by
  rcases step_cases h with ⟨-, rfl⟩ | ⟨i, rest, -, hi⟩
  · exact .inl rfl
  by_cases h1 : i = Instr.hardReset
  · subst h1; cases hi; exact .inr (.inl rfl)
  by_cases h2 : i = Instr.resetnNegated
  · subst h2; cases hi; exact .inr (.inr (.inl rfl))
  rw [exec_eq_event h1 h2] at hi
  unfold event at hi
  split at hi
  · cases hi; exact .inr (.inr (.inr (.inl rfl)))
  · split at hi
    · cases hi; exact .inr (.inr (.inr (.inl rfl)))
    · cases hi; exact .inr (.inr (.inr (.inr ⟨i, _, ‹_›, rfl⟩)))

/-- Settles O56: every change keeps the order, and a hard reset empties the timelines. -/
theorem timelinesStayOrdered : Obligations.TimelinesStayOrdered := by
  intro s s' ho h
  rcases step_part h with e | e | e | e | ⟨i, p, hp, e⟩ <;> rw [e]
  · exact (Part.changes_backupPeriod (L := True) (R := True) s.part).timelinesOrdered ho
  · intro c
    rw [Part.timeline_hardReset]
    exact .nil
  · exact ho
  · exact ho
  · exact Part.Changes.timelinesOrdered ((effect_changes hp).trans (Part.changes_settle p)) ho

end Sys2Proof.Machine
end

section
/-!
The counts of stored steps (R1, R4), and the states in which the store is empty.
-/

namespace Sys2Proof.Machine

namespace Part

variable {W : Fin 4 → Prop} {L R : Prop} {p p' p'' : Part}

/-! ### The counts under a change -/

theorem timelines_toList (p : Part) : p.timelines.toList = (List.finRange 32).map p.timeline :=
  List.ext_getElem (by simp) fun n _ _ => by rw [List.getElem_map, List.getElem_finRange]; rfl

theorem sum_timelines_le (g : List Step → Nat) (h : ∀ c, g (p'.timeline c) ≤ g (p.timeline c)) :
    (p'.timelines.toList.map g).sum ≤ (p.timelines.toList.map g).sum := by
  rw [timelines_toList, timelines_toList, List.map_map, List.map_map]
  exact List.sum_le_sum fun c _ => h c

theorem storedSteps_le_of_thins (h : ∀ c, Thins (p.timeline c) (p'.timeline c)) : p'.storedSteps ≤ p.storedSteps :=
  sum_timelines_le List.length fun c => (h c).total

theorem inUse_le_of_thins (h : ∀ c, Thins (p.timeline c) (p'.timeline c)) (q : Fin 8) : p'.inUse q ≤ p.inUse q :=
  sum_timelines_le (fun tl => (tl.filter fun s : Step => s.origin == q).length) fun c => (h c).origin q

theorem inUse_of_empty (h : ∀ c, p.timeline c = []) (q : Fin 8) : p.inUse q = 0 := by
  have := sum_timelines_le (p := { p with timelines := Vector.replicate 32 [] }) (p' := p)
    (fun tl => (tl.filter fun s : Step => s.origin == q).length) fun c => by simp [h]
  simpa [inUse] using this

theorem Change.storeBounded (m : Change L R p p') (h : p.storeBounded) : p'.storeBounded := by
  rcases m.thins_or_place with ht | ⟨-, c, s, rfl, -, hs⟩
  · exact (storedSteps_le_of_thins ht).trans h
  · unfold Part.storeBounded
    rw [storedSteps_place]
    exact hs

theorem Changes.storeBounded (m : Changes L R p p') (h : p.storeBounded) : p'.storeBounded :=
  m.keep (P := Part.storeBounded) (fun _ _ m => m.storeBounded) h

/-- Quotas are changed only by a command that may load them. -/
theorem Change.quota (m : Change L R p p') (hL : ¬L) (q : Fin 8) : (p'.queue q).quota = (p.queue q).quota := by
  cases m with
  | plain _ _ _ _ quotas => exact (quotas.resolve_left hL) q
  | move m => cases m <;> simp [queue]
  | pair | members | place => rfl

theorem Change.inUse_le_quota (m : Change L R p p') (hL : ¬L) (h : ∀ q, p.inUse q ≤ (p.queue q).quota) (q : Fin 8) :
    p'.inUse q ≤ (p'.queue q).quota := by
  rw [m.quota hL]
  rcases m.thins_or_place with ht | ⟨-, c, s, rfl, hq, -⟩
  · exact (inUse_le_of_thins ht q).trans (h q)
  · rw [inUse_place]
    split
    · rename_i e; subst e; exact hq
    · exact h q

theorem Changes.inUse_le_quota (m : Changes L R p p') (hL : ¬L) (h : ∀ q, p.inUse q ≤ (p.queue q).quota) :
    ∀ q, p'.inUse q ≤ (p'.queue q).quota :=
  m.keep (P := fun p => ∀ q, p.inUse q ≤ (p.queue q).quota) (fun _ _ m h => m.inUse_le_quota hL h) h

/-- An empty store stays empty under a command that may not place steps. -/
theorem Changes.empty (m : Changes L R p p') (hR : ¬R) (h : ∀ c, p.timeline c = []) : ∀ c, p'.timeline c = [] :=
  m.keep (P := fun p => ∀ c, p.timeline c = []) (fun _ _ m h c => by
    rcases m.thins_or_place with ht | ⟨may, -⟩
    · exact (ht c).nil (h c)
    · exact absurd may hR) h

theorem Moves.empty (m : Moves W p p') (h : ∀ c, p.timeline c = []) : ∀ c, p'.timeline c = [] :=
  m.keep (P := fun p => ∀ c, p.timeline c = []) (fun _ _ m h c => (m.thins c).nil (h c)) h

end Part
end Sys2Proof.Machine
end

section
/-!
Which operations keep the engine state and the Configuration Block's read, and how each command treats the law that the store is
empty outside RUNNING.
-/

namespace Sys2Proof.Machine

namespace Part

variable {p p' p'' : Part}

/-- The engine state is as it was, and no read of the Configuration Block has begun. -/
structure Kept (p p' : Part) : Prop where
  state : p'.engine.state = p.engine.state
  block : p.monitor.block = none → p'.monitor.block = none

theorem Kept.refl (p : Part) : Kept p p := ⟨rfl, id⟩

theorem Kept.trans (h : Kept p p') (h' : Kept p' p'') : Kept p p'' := ⟨h'.state.trans h.state, h'.block ∘ h.block⟩

theorem Moves.kept (m : Moves (fun _ => True) p p') : Kept p p' := ⟨congrArg Engine.state m.engine, m.block.trans⟩

theorem kept_complete (h : Kept p p') {q : Fin 8} {hd : Header} {st : Status} {aux : Nat} :
    Kept p (p'.complete q hd st aux) := h.trans (moves_complete p' q hd st aux trivial).kept

theorem kept_completeWith (h : Kept p p') {q : Fin 8} {hd : Header} {aux v : Nat} :
    Kept p (p'.completeWith q hd aux v) := h.trans (moves_completeWith p' q hd aux v trivial).kept

theorem kept_foldl {β : Type} (f : Part → β → Part) (h : ∀ p b, Kept p (f p b)) (l : List β) (p : Part) :
    Kept p (l.foldl f p) := by
  induction l generalizing p with
  | nil => exact .refl p
  | cons b l ih => exact (h p b).trans (ih _)

theorem kept_placeAdmitted (p : Part) (q : Fin 8) (hd : Header) (link : Option (Fin 64)) (steps : List RawStep) :
    Kept p (p.placeAdmitted q hd link steps) := by
  unfold placeAdmitted
  refine kept_foldl _ (fun p r => ?_) steps p
  exact ⟨rfl, id⟩

theorem kept_admission (p : Part) (q : Fin 8) (hd : Header) (steps : List RawStep) :
    Kept p (p.admission q hd steps) := by
  unfold admission
  dsimp only
  split
  · exact (kept_placeAdmitted ..).trans ⟨rfl, id⟩
  · exact kept_complete (kept_placeAdmitted ..)

theorem kept_scheduleInline (p : Part) (q : Fin 8) (hd : Header) (cmd : Command) :
    Kept p (p.scheduleInline q hd cmd) := by
  unfold scheduleInline
  split
  · exact kept_admission ..
  · split
    · exact ⟨rfl, id⟩
    · exact kept_complete (.refl p)

theorem kept_retry (p : Part) (q : Fin 8) (held : Held) : Kept p (p.retry q held) := by
  have hu : Kept p (p.unpark q) := ⟨rfl, id⟩
  unfold retry
  split
  · exact hu.trans (kept_admission ..)
  · split
    · exact ⟨rfl, id⟩
    · exact kept_complete hu

theorem kept_admitList (p : Part) (q : Fin 8) (hd : Header) (steps : List RawStep) :
    Kept p (p.admitList q hd steps) := by
  unfold admitList
  split
  · exact kept_admission ..
  · exact kept_complete (.refl p)

theorem kept_scheduleList (p : Part) (q : Fin 8) (hd : Header) (b : ListBody) : Kept p (p.scheduleList q hd b) := by
  unfold scheduleList
  dsimp only
  split
  · exact kept_complete (.refl p)
  · split
    · exact ⟨rfl, id⟩
    · exact kept_complete (.refl p)

theorem kept_cancelTag (p : Part) (q : Fin 8) (hd : Header) (tag : BitVec 16) : Kept p (p.cancelTag q hd tag) :=
  kept_completeWith (moves_dropOn ..).kept

theorem kept_cancelChannel (p : Part) (q : Fin 8) (hd : Header) (c : BitVec 8) : Kept p (p.cancelChannel q hd c) := by
  unfold cancelChannel
  dsimp only
  split
  · exact kept_complete (.refl p)
  · split
    · exact kept_complete (.refl p)
    · exact kept_completeWith (moves_dropWhere ..).kept

theorem kept_configureChannel (p : Part) (q : Fin 8) (hd : Header) (b : ChannelBody) :
    Kept p (p.configureChannel q hd b) := by
  unfold configureChannel
  dsimp only
  split
  · exact kept_complete (.refl p)
  · refine kept_completeWith (Kept.trans ?_ (moves_requestIdle _ _ _).kept)
    exact ⟨rfl, id⟩

theorem kept_configurePair (p : Part) (q : Fin 8) (hd : Header) (b : PairBody) : Kept p (p.configurePair q hd b) := by
  unfold configurePair
  dsimp only
  split
  · exact kept_complete (.refl p)
  · refine kept_completeWith ?_
    exact ⟨rfl, id⟩

theorem kept_queryChannel (p : Part) (q : Fin 8) (hd : Header) (c : BitVec 8) : Kept p (p.queryChannel q hd c) := by
  unfold queryChannel
  dsimp only
  split
  · exact kept_complete (.refl p)
  · split
    · exact kept_complete (.refl p)
    · refine kept_completeWith ?_
      exact ⟨rfl, id⟩

theorem kept_configureDomain (p : Part) (q : Fin 8) (hd : Header) (b : DomainBody) :
    Kept p (p.configureDomain q hd b) := by
  unfold configureDomain
  split
  · exact kept_complete (.refl p)
  · refine kept_complete ?_
    exact ⟨rfl, id⟩

theorem kept_loadSafeSequence (p : Part) (q : Fin 8) (hd : Header) (b : SequenceBody) :
    Kept p (p.loadSafeSequence q hd b) := by
  unfold loadSafeSequence
  split
  · exact kept_complete (.refl p)
  · refine kept_complete ?_
    exact ⟨rfl, id⟩

theorem kept_armDomain (p : Part) (q : Fin 8) (hd : Header) (d : BitVec 8) : Kept p (p.armDomain q hd d) := by
  unfold armDomain
  dsimp only
  repeat' split
  all_goals
    refine kept_complete ?_
    exact ⟨rfl, id⟩

theorem kept_disarmDomain (p : Part) (q : Fin 8) (hd : Header) (d : BitVec 8) : Kept p (p.disarmDomain q hd d) := by
  unfold disarmDomain
  dsimp only
  repeat' split
  all_goals
    refine kept_complete ?_
    exact ⟨rfl, id⟩

theorem kept_tripDomain (p : Part) (q : Fin 8) (hd : Header) (d : BitVec 8) : Kept p (p.tripDomain q hd d) := by
  unfold tripDomain
  dsimp only
  split
  · exact kept_complete (.refl p)
  · split
    · exact kept_complete (.refl p)
    · split
      · exact kept_complete (.refl p)
      · exact kept_completeWith (moves_offer ..).kept

theorem kept_releaseChannel (p : Part) (c : Fin 32) : Kept p (p.releaseChannel c) := by
  unfold releaseChannel
  refine Kept.trans ?_ (moves_resolveAll ..).kept
  exact ⟨rfl, id⟩

theorem kept_release (p : Part) (q : Fin 8) (hd : Header) (d : Fin 8) : Kept p (p.release q hd d) := by
  unfold release
  dsimp only
  refine kept_complete (Kept.trans ?_ (moves_notify _ _).kept)
  refine Kept.trans ?_ (kept_foldl _ (fun p c => (moves_unforceChannel p _ c).kept) _ _)
  split
  · exact (kept_foldl _ kept_releaseChannel _ _).trans ⟨rfl, id⟩
  · exact ⟨rfl, id⟩

theorem kept_releaseDomain (p : Part) (q : Fin 8) (hd : Header) (d : BitVec 8) : Kept p (p.releaseDomain q hd d) := by
  unfold releaseDomain
  dsimp only
  split
  · exact kept_complete (.refl p)
  · split
    · exact kept_complete (.refl p)
    · split
      · exact kept_complete (.refl p)
      · exact kept_release ..

theorem kept_queryDomain (p : Part) (q : Fin 8) (hd : Header) (d : BitVec 8) : Kept p (p.queryDomain q hd d) := by
  unfold queryDomain
  split
  · exact kept_complete (.refl p)
  · exact kept_completeWith (.refl p)

theorem kept_configureFaultInput (p : Part) (q : Fin 8) (hd : Header) (b : InputBody) :
    Kept p (p.configureFaultInput q hd b) := by
  unfold configureFaultInput
  dsimp only
  repeat' split
  all_goals
    refine kept_complete ?_
    exact ⟨rfl, id⟩

theorem kept_clearFaultLatch (p : Part) (q : Fin 8) (hd : Header) (n : BitVec 8) :
    Kept p (p.clearFaultLatch q hd n) := by
  unfold clearFaultLatch
  dsimp only
  repeat' split
  all_goals
    refine kept_complete ?_
    exact ⟨rfl, id⟩

theorem kept_configureSupervisor (p : Part) (q : Fin 8) (hd : Header) (b : SupervisorBody) :
    Kept p (p.configureSupervisor q hd b) := by
  unfold configureSupervisor
  repeat' split
  all_goals
    refine kept_complete ?_
    exact ⟨rfl, id⟩

theorem kept_restorePrimaryClock (p : Part) (q : Fin 8) (hd : Header) : Kept p (p.restorePrimaryClock q hd) := by
  unfold restorePrimaryClock
  dsimp only
  split
  · exact kept_complete (.refl p)
  split
  · exact kept_complete (.refl p)
  have hs (s : Source) (r : SourceReason) (a : SupervisorState) : Kept p (p.switchSource s r a) := by
    unfold switchSource
    refine Kept.trans ?_ (moves_notify _ _).kept
    exact ⟨rfl, id⟩
  refine kept_complete ?_
  split <;> split
  · exact hs ..
  · exact .refl p
  · exact (hs ..).trans ⟨rfl, id⟩
  · exact ⟨rfl, id⟩

/-- No fetched command moves the engine or the read of the Configuration Block. -/
theorem kept_owner (p : Part) (q : Fin 8) (hd : Header) (cmd : Command) : Kept p (p.owner q hd cmd) := by
  cases cmd with
  | schedule b => exact kept_scheduleInline ..
  | scheduleRepeating b => exact kept_scheduleInline ..
  | scheduleList b => exact kept_scheduleList ..
  | cancelTag tag => exact kept_cancelTag ..
  | cancelChannel c => exact kept_cancelChannel ..
  | configureChannel b => exact kept_configureChannel ..
  | configurePair b => exact kept_configurePair ..
  | queryChannel c => exact kept_queryChannel ..
  | configureDomain b => exact kept_configureDomain ..
  | loadSafeSequence b => exact kept_loadSafeSequence ..
  | armDomain d => exact kept_armDomain ..
  | disarmDomain d => exact kept_disarmDomain ..
  | tripDomain d => exact kept_tripDomain ..
  | releaseDomain d => exact kept_releaseDomain ..
  | queryDomain d => exact kept_queryDomain ..
  | configureFaultInput b => exact kept_configureFaultInput ..
  | clearFaultLatch n => exact kept_clearFaultLatch ..
  | configureSupervisor b => exact kept_configureSupervisor ..
  | restorePrimaryClock => exact kept_restorePrimaryClock ..
  | readTime => exact kept_complete (.refl p)
  | unknownKind k => exact kept_complete (.refl p)

theorem kept_process (p : Part) (q : Fin 8) (hd : Header) (cmd : Command) : Kept p (p.process q hd cmd) := by
  unfold process
  split
  · exact kept_complete (.refl p)
  · exact kept_owner ..

end Part
end Sys2Proof.Machine
end

section
/-!
The store outside RUNNING: empty, with no command read live (R1, R4, R28).
-/

namespace Sys2Proof.Machine

namespace Part

variable {p p' p'' : Part}

/-! ### emptyStore and emptyTable -/

@[simp] theorem emptyStore_timeline (p : Part) (c : Fin 32) : p.emptyStore.timeline c = [] := by
  simp [timeline, emptyStore]
@[simp] theorem emptyTable_timeline (p : Part) (c : Fin 32) : p.emptyTable.timeline c = p.timeline c := rfl
@[simp] theorem emptyTable_entry (p : Part) (i : Fin 64) : p.emptyTable.entry i = none := by simp [entry, emptyTable]

/-- Outside RUNNING the store is empty and no command read is live, and in RUNNING no Configuration Block is being read. -/
structure IdleOutsideRunning (p : Part) : Prop where
  idle : p.engine.state ≠ .running → (∀ c, p.timeline c = []) ∧ p.command.path = discardPath p.command.path
  block : p.engine.state = .running → p.monitor.block = none

theorem quotasKept_iff :
    p.quotasKept ↔ (∀ q, p.inUse q ≤ (p.queue q).quota) ∧ p.IdleOutsideRunning :=
  ⟨fun ⟨h1, h2, h3⟩ => ⟨h1, h2, h3⟩, fun ⟨h1, h2, h3⟩ => ⟨h1, h2, h3⟩⟩

/-- The engine state is kept, no block's read begins, an empty store stays empty, and the command path is as it was or holds no
live read. -/
structure Steady (p p' : Part) : Prop extends Kept p p' where
  path : p'.command.path = p.command.path ∨ p'.command.path = discardPath p'.command.path
  empty : (∀ c, p.timeline c = []) → ∀ c, p'.timeline c = []

theorem Steady.refl (p : Part) : Steady p p := ⟨.refl p, .inl rfl, id⟩

theorem Steady.trans (h : Steady p p') (h' : Steady p' p'') : Steady p p'' where
  toKept := h.toKept.trans h'.toKept
  path := by
    rcases h'.path with e | e
    · rw [e]; exact h.path
    · exact .inr e
  empty := h'.empty ∘ h.empty

theorem Moves.steady (m : Moves (fun _ => True) p p') : Steady p p' :=
  ⟨m.kept, .inl (congrArg CommandUnit.path m.command), m.empty⟩

/-- A change of neither the engine, the command path, the block's read nor the timelines. -/
theorem Steady.frame (engine : p'.engine.state = p.engine.state) (path : p'.command.path = p.command.path)
    (block : p'.monitor.block = p.monitor.block) (timelines : p'.timelines = p.timelines) : Steady p p' :=
  ⟨⟨engine, block.trans⟩, .inl path, fun h c => (thins_of_timelines timelines c).nil (h c)⟩

theorem IdleOutsideRunning.steady (h : p.IdleOutsideRunning) (hs : Steady p p') : p'.IdleOutsideRunning where
  idle hr := by
    rw [hs.state] at hr
    obtain ⟨ht, hp⟩ := h.idle hr
    refine ⟨hs.empty ht, ?_⟩
    rcases hs.path with e | e
    · rw [e]; exact hp
    · exact e
  block hr := by
    exact hs.block (h.block (hs.state ▸ hr))

theorem idle_of_running (hs : p.engine.state = .running) (hb : p.monitor.block = none) : p.IdleOutsideRunning :=
  ⟨fun h => absurd hs h, fun _ => hb⟩

theorem idle_of_stopped (hs : p.engine.state ≠ .running) (ht : ∀ c, p.timeline c = [])
    (hp : p.command.path = discardPath p.command.path) : p.IdleOutsideRunning :=
  ⟨fun _ => ⟨ht, hp⟩, fun h => absurd h hs⟩

/-- In RUNNING a change of the steps and the command path alone needs no more. -/
theorem IdleOutsideRunning.kept (h : p.IdleOutsideRunning) (hr : p.engine.state = .running) (hk : Kept p p') :
    p'.IdleOutsideRunning := idle_of_running (hk.state.trans hr) (hk.block (h.block hr))

theorem discardPath_idem (x : CommandPath) : discardPath x = discardPath (discardPath x) := by cases x <;> rfl

/-- A live read of the command path is there in RUNNING alone. -/
theorem IdleOutsideRunning.running_of_live (h : p.IdleOutsideRunning) (hp : p.command.path ≠ discardPath p.command.path) :
    p.engine.state = .running := by
  by_contra hr
  exact hp (h.idle hr).2

/-- A Configuration Block is read outside RUNNING alone. -/
theorem IdleOutsideRunning.stopped_of_block (h : p.IdleOutsideRunning) (hb : p.monitor.block.isSome = true) :
    p.engine.state ≠ .running := fun hr => by simp [h.block hr] at hb

/-- The part after the first three parts of an entry to FATAL (R192), before ENGINE FAULT is offered. -/
def stopped (p : Part) : Part :=
  ((((p.modEngine fun e => { e with state := .fatal }).modCommand fun u =>
    { u with path := discardPath u.path }).modPosting stopPosting).emptyStore).emptyTable

theorem enterFatal_eq (p : Part) (reason : FatalReason) (ring : FatalRing) :
    p.enterFatal reason ring = (((p.stopped.offerAll .engineFault).takeOver.modEngine fun e =>
      { e with fatalReason := some reason, fatalRing := some ring }).setCause engineCause) := rfl

theorem stopped_timeline (p : Part) (c : Fin 32) : p.stopped.timeline c = [] := by
  unfold stopped
  rw [emptyTable_timeline, emptyStore_timeline]

theorem moves_fatal (p : Part) : Moves W p.stopped (p.stopped.offerAll .engineFault).takeOver :=
  (moves_offerAll _ _).trans (moves_takeOver _)

theorem enterFatal_stopped (p : Part) (reason : FatalReason) (ring : FatalRing) :
    (p.enterFatal reason ring).engine.state = .fatal ∧ (∀ c, (p.enterFatal reason ring).timeline c = []) ∧
      (p.enterFatal reason ring).command.path = discardPath p.command.path := by
  have hm := moves_fatal (W := fun _ => True) p
  rw [enterFatal_eq]
  generalize (p.stopped.offerAll .engineFault).takeOver = p' at hm
  refine ⟨?_, hm.empty p.stopped_timeline, ?_⟩
  · exact congrArg Engine.state hm.engine
  · exact congrArg CommandUnit.path hm.command

theorem IdleOutsideRunning.settle (h : p.IdleOutsideRunning) : p.settle.IdleOutsideRunning := by
  have hf : p.checkFault.IdleOutsideRunning := by
    unfold checkFault
    split
    · exact h
    · obtain ⟨hs, ht, hp⟩ := enterFatal_stopped p ‹_› ‹_›
      exact idle_of_stopped (by rw [hs]; decide) ht (by rw [hp]; exact discardPath_idem _)
  unfold Part.settle checkHalted
  split
  · rename_i hh
    obtain ⟨ht, hp⟩ := hf.idle (by rw [hh.1]; decide)
    exact idle_of_stopped (by simp) ht hp
  · exact hf

/-! ### The effects that are sequences of moves -/

theorem moves_actOn (p : Part) (c : Fin 32) (t : Nat) (a : Option Answer) : Moves W p (p.actOn c t a) := by
  unfold actOn
  split
  · exact .trans (.single (.timeline p c _ (Thins.applyBatch t _))) (moves_resolveAll _ _ _)
  · exact moves_dropWhere _ _ _ _
  · exact .single (.timeline p c _ (Thins.deferBatch _ _))
  · exact .refl

theorem moves_takeBatch (p : Part) (c : Fin 32) (t : Nat) (w : Bool) : Moves W p (p.takeBatch c t w) := by
  have h := fun lo up a b => ((moves_batch (W := W) p (pairOf c) lo up).trans (moves_actOn _ (channelOf (pairOf c) .lower) t a)).trans
    (moves_actOn _ (channelOf (pairOf c) .upper) t b)
  unfold takeBatch
  dsimp only
  refine .trans ?_ (moves_checkReported _ _)
  split
  · exact (h _ _ _ _).trans (moves_contention _ _ _ _ _ _ _)
  · exact h _ _ _ _

theorem moves_dueTimeEvent (c : Fin 32) (w : Bool) (h : p.dueTimeEvent c w = some p') : Moves W p p' := by
  unfold dueTimeEvent at h
  split at h
  · cases h
  · split at h
    · cases h; exact moves_takeBatch ..
    · cases h

theorem moves_deadTimeExpiry (k : Fin 16) (h : p.deadTimeExpiry k = some p') : Moves W p p' := by
  unfold deadTimeExpiry at h
  dsimp only at h
  split at h
  · cases h
    exact .trans (.trans (.single (.expired p k)) (moves_noteReports _ _ _)) (moves_checkReported _ _)
  · cases h

theorem moves_safeSequenceEntryDue (d : Fin 8) (n : Nat) (h : p.safeSequenceEntryDue d n = some p') : Moves W p p' := by
  unfold safeSequenceEntryDue at h
  dsimp only at h
  split at h
  · cases h
  · split at h
    · cases h; exact .trans (moves_makeEntry _ _ _ _) (moves_checkSafe _ _)
    · cases h

/-! ### The effects that keep the engine state and the block's read, and add no step -/

theorem steady_activate (p : Part) (n : Fin 16) : Steady p (p.activate n) := by
  unfold activate
  dsimp only
  refine Moves.steady (.trans ?_ (moves_offerAll _ _))
  split
  · exact moves_notify _ _
  · exact .refl

theorem steady_sampleEvent (n : Fin 16) (b : Bool) (h : p.sampleEvent n b = some p') : Steady p p' := by
  have hi (i : FaultInput) : Steady p (p.modInput n fun _ => i) := .frame rfl rfl rfl rfl
  unfold sampleEvent at h
  dsimp only at h
  split at h
  · cases h
    split
    · exact (hi _).trans (steady_activate ..)
    · exact hi _
  · cases h

theorem steady_notifyFailed (p : Part) (f : Supervisor → Supervisor) : Steady p (p.modSupervisor f).notifyFailed :=
  Steady.trans (p' := p.modSupervisor f) (.frame rfl rfl rfl rfl) (moves_notify _ _).steady

theorem steady_switchSource (p : Part) (s : Source) (r : SourceReason) (a : SupervisorState) :
    Steady p (p.switchSource s r a) :=
  Steady.trans (p' := p.modClock _) (.frame rfl rfl rfl rfl) (moves_notify _ _).steady

theorem steady_failSupervisor (p : Part) : Steady p p.failSupervisor := by
  unfold failSupervisor
  dsimp only
  refine Steady.trans ?_ (moves_offerAll _ _).steady
  split
  · exact (steady_notifyFailed ..).trans (steady_switchSource ..)
  · exact steady_notifyFailed ..

theorem steady_takeVerdict (p : Part) (v : Verdict) (n : Nat) (w : SupervisorWindow) :
    Steady p (p.takeVerdict v n w) := by
  unfold takeVerdict
  dsimp only
  split
  · exact .frame rfl rfl rfl rfl
  · generalize (if v = .inRange then 0 else p.clock.supervisor.bad + 1) = bad
    split
    · exact Steady.trans (p' := p.modSupervisor _) (.frame rfl rfl rfl rfl) (steady_failSupervisor _)
    · exact .frame rfl rfl rfl rfl
  · exact .refl p
  · exact .refl p

theorem steady_refEdge (h : p.refEdge = some p') : Steady p p' := by
  unfold refEdge at h
  dsimp only at h
  split at h
  · cases h
  split at h
  · cases h
  split at h
  · cases h; exact .frame rfl rfl rfl rfl
  split at h
  · cases h; exact steady_takeVerdict ..
  · cases h; exact .frame rfl rfl rfl rfl

theorem steady_windowEnd (h : p.windowEnd = some p') : Steady p p' := by
  unfold windowEnd at h
  dsimp only at h
  split at h
  · cases h
  split at h
  · cases h; exact steady_takeVerdict ..
  · cases h

theorem steady_referenceTimeout (h : p.referenceTimeout = some p') : Steady p p' := by
  unfold referenceTimeout at h
  dsimp only at h
  split at h
  · cases h
  split at h
  · cases h; exact steady_takeVerdict ..
  · cases h

theorem steady_supervisorStopped (p : Part) : Steady p p.supervisorStopped := by
  unfold supervisorStopped
  dsimp only
  split
  · exact (steady_notifyFailed ..).trans (moves_offerAll _ _).steady
  · exact .refl p

theorem steady_primaryStop (h : p.primaryStop = some p') : Steady p p' := by
  have hd : Steady p p.detectorReached := .frame rfl rfl rfl rfl
  unfold primaryStop at h
  dsimp only at h
  split at h
  · cases h
    exact (hd.trans (steady_switchSource ..)).trans (steady_supervisorStopped _)
  · cases h

theorem steady_primaryIndicationAbsent (h : p.primaryIndicationAbsent = some p') : Steady p p' := by
  unfold primaryIndicationAbsent at h
  split at h
  · cases h; exact .frame rfl rfl rfl rfl
  · cases h

theorem steady_issueNext (p : Part) : Steady p p.issueNext :=
  .frame (by simp) (by simp) (by simp) (by simp)

theorem steady_endWrite (p : Part) : Steady p p.endWrite := .frame rfl rfl rfl rfl

theorem steady_postCompletion (p : Part) (n : Fin 4) : Steady p (p.postCompletion n) := by
  unfold postCompletion
  dsimp only
  split <;> exact .frame rfl rfl rfl rfl

theorem steady_completionWriteAnswered (h : p.completionWriteAnswered = some p') : Steady p p' := by
  unfold completionWriteAnswered at h
  split at h
  · cases h
  split at h
  · split at h
    · cases h; exact (steady_endWrite p).trans (steady_issueNext _)
    · cases h; exact ((steady_endWrite p).trans (steady_postCompletion _ _)).trans (steady_issueNext _)
  · cases h

theorem steady_noticeWriteAnswered (h : p.noticeWriteAnswered = some p') : Steady p p' := by
  unfold noticeWriteAnswered at h
  split at h
  · cases h
  split at h
  · split at h
    · cases h; exact (steady_endWrite p).trans (steady_issueNext _)
    · cases h
      refine ((steady_endWrite p).trans (p' := p.endWrite) ?_).trans (steady_issueNext _)
      exact .frame rfl rfl rfl rfl
  · cases h

theorem steady_writeFault (p : Part) (a : Access) (f : AccessFault) : Steady p (p.writeFault a f) := by
  unfold writeFault
  dsimp only
  split
  · exact (steady_endWrite p).trans (steady_issueNext _)
  · exact .frame rfl rfl rfl rfl

theorem steady_holdoffExpiry (n : Fin 4) (h : p.holdoffExpiry n = some p') : Steady p p' := by
  unfold holdoffExpiry at h
  dsimp only at h
  split at h
  · cases h; split <;> exact .frame rfl rfl rfl rfl
  · cases h

theorem steady_freePath (p : Part) : Steady p p.freePath := ⟨⟨rfl, id⟩, .inr rfl, id⟩

theorem steady_complete (h : Steady p p') {q : Fin 8} {hd : Header} {st : Status} {aux : Nat} :
    Steady p (p'.complete q hd st aux) := h.trans (moves_complete p' q hd st aux trivial).steady

theorem steady_queueError (p : Part) (q : Fin 8) (r : QueueErrorReason) (i : Nat) (b : Bool) :
    Steady p (p.queueError q r i b) :=
  Steady.trans (p' := p.modQueue q _) (.frame rfl rfl rfl rfl) (moves_notify _ _).steady

theorem steady_fetchFault (p : Part) (q : Fin 8) (f : AccessFault) : Steady p (p.fetchFault q f) :=
  Steady.trans (p' := p.returnCredit _) (.frame rfl rfl rfl rfl) (steady_queueError ..)

theorem steady_commandReadFault (p : Part) (f : AccessFault) : Steady p (p.commandReadFault f) := by
  unfold commandReadFault
  split
  · exact .refl p
  · split
    · exact (steady_freePath p).trans (.frame rfl rfl rfl rfl)
    · exact (steady_freePath p).trans (steady_fetchFault ..)
  · split
    · exact steady_freePath p
    · exact steady_complete (steady_freePath p)

theorem steady_completeHeld (p : Part) (q : Fin 8) (held : Held) (st : Status) (aux : Nat) :
    Steady p (p.completeHeld q held st aux) := by
  unfold completeHeld
  refine steady_complete ?_
  exact .frame rfl rfl rfl rfl

theorem steady_completeParked (p : Part) (q : Fin 8) : Steady p (p.completeParked q) := by
  unfold completeParked
  split
  · exact .refl p
  · exact steady_completeHeld ..

theorem steady_discardFetch (p : Part) (q : Fin 8) : Steady p (p.discardFetch q) := by
  unfold discardFetch
  split
  · split
    · exact ⟨⟨rfl, id⟩, .inr rfl, id⟩
    · exact .refl p
  · exact .refl p

theorem steady_rejectNotify (p : Part) : Steady p p.rejectNotify := .frame rfl rfl rfl rfl

theorem steady_postTail (target : BitVec 4) (index : BitVec 16) (p : Part) : Steady p (p.postTail target index) := by
  unfold postTail
  dsimp only
  split
  · exact steady_rejectNotify p
  split
  · exact steady_rejectNotify p
  split
  · exact .frame rfl rfl rfl rfl
  · exact ((steady_completeParked _ _).trans (steady_discardFetch _ _)).trans (steady_queueError ..)

theorem steady_resetQueue (target : BitVec 4) (p : Part) : Steady p (p.resetQueue target) := by
  unfold resetQueue
  split
  · exact steady_rejectNotify p
  · exact ((steady_completeParked _ _).trans (steady_discardFetch _ _)).trans (.frame rfl rfl rfl rfl)

theorem steady_movePending (n : Nat) (p : Part) : Steady p (movePending n p) := by
  induction n generalizing p with
  | zero => exact .refl p
  | succ n ih =>
    unfold movePending
    split
    · exact .refl p
    · split
      · refine Steady.trans ?_ (ih _)
        exact .frame (by simp) (by simp) (by simp [joinWriteList]) (by simp)
      · exact .refl p

theorem steady_consume (target : BitVec 4) (index : BitVec 16) (p : Part) : Steady p (p.consume target index) := by
  unfold consume
  split
  · exact steady_rejectNotify p
  split
  · unfold consumeCq
    dsimp only
    split
    · exact .frame rfl rfl rfl rfl
    · exact steady_rejectNotify p
  split
  · unfold consumeRing
    dsimp only
    split
    · exact Steady.trans (p' := p.modRing _) (.frame rfl rfl rfl rfl) (steady_movePending ..)
    · exact steady_rejectNotify p
  · exact steady_rejectNotify p

theorem steady_notifyWrite (op target : BitVec 4) (index : BitVec 16) (p : Part) :
    Steady p (p.notifyWrite op target index) := by
  unfold notifyWrite
  split
  · exact steady_postTail ..
  · exact steady_consume ..
  · exact steady_resetQueue ..
  · exact steady_rejectNotify p

end Part
end Sys2Proof.Machine
end

section
/-!
Every command keeps the store empty outside RUNNING, and every step keeps the quotas.
-/

namespace Sys2Proof.Machine

namespace Part

variable {p p' : Part}

/-- Once a queue's record or list has been read live, the command is taken in RUNNING. -/
theorem idle_arrival (h : p.IdleOutsideRunning) (hd : Header) (cmd : Command) (hp : p.arrival hd cmd = some p') :
    p'.IdleOutsideRunning := by
  unfold arrival at hp
  split at hp
  · rename_i q d hq
    split at hp
    · cases hp
      exact h.steady ((steady_freePath p).trans (.frame rfl rfl rfl rfl))
    · cases hp
      refine h.kept (h.running_of_live ?_) (Kept.trans ?_ (kept_process ..))
      · rw [hq]
        simp_all [discardPath]
      · exact ⟨rfl, id⟩
  · cases hp

theorem idle_recordArrives (h : p.IdleOutsideRunning) (data : List Byte) (hp : p.recordArrives data = some p') :
    p'.IdleOutsideRunning := by
  unfold recordArrives at hp
  split at hp
  · exact idle_arrival h _ _ hp
  · cases hp

theorem idle_listArrives (h : p.IdleOutsideRunning) (data : List Byte) (hp : p.listArrives data = some p') :
    p'.IdleOutsideRunning := by
  unfold listArrives at hp
  split at hp
  · rename_i q hd d a hq _
    split at hp
    · split at hp
      · cases hp
        exact h.steady (steady_freePath p)
      · cases hp
        refine h.kept (h.running_of_live ?_) ((steady_freePath p).toKept.trans (kept_admitList ..))
        rw [hq]
        simp_all [discardPath]
    · cases hp
  · cases hp

theorem kept_grantTo (p : Part) (q : Fin 8) : Kept p (p.grantTo q) := by
  have hm : Kept p (p.movePointer q) := ⟨rfl, id⟩
  unfold grantTo
  dsimp only
  split
  · exact hm.trans (kept_retry ..)
  · unfold issueFetch
    dsimp only
    split
    · exact ⟨rfl, id⟩
    · refine Kept.trans ?_ (steady_fetchFault ..).toKept
      exact ⟨rfl, id⟩

theorem idle_fetchGrant (h : p.IdleOutsideRunning) (hp : p.fetchGrant = some p') : p'.IdleOutsideRunning := by
  unfold fetchGrant at hp
  split at hp
  · rename_i hs
    obtain ⟨q, -, rfl⟩ := Option.map_eq_some_iff.1 hp
    exact h.kept hs.1 (kept_grantTo p q)
  · cases hp

/-! ### The CONTROL operations -/

theorem steady_refuseControl (p : Part) (o : LastRefused) : Steady p (p.refuseControl o) := .frame rfl rfl rfl rfl

theorem idle_controlStart (h : p.IdleOutsideRunning) : p.controlStart.IdleOutsideRunning := by
  unfold controlStart
  split
  · rename_i ha
    have hr : p.engine.state ≠ .running := by
      intro e
      simp [startAccepted, e] at ha
    obtain ⟨ht, hp⟩ := h.idle hr
    dsimp only
    split <;> exact idle_of_stopped (by simp [requestBlock]) ht hp
  · exact h.steady (steady_refuseControl ..)

/-- The part of a HALT up to the emptying of the store (R189, parts 1 to 3). -/
def halting (p : Part) : Part :=
  ((List.finRange 8).foldl haltQueue (p.modEngine fun e => { e with state := .halting, lastRefused := .none })).haltList.discardRead

theorem steady_haltQueue (p : Part) (q : Fin 8) : Steady p (p.haltQueue q) := by
  unfold haltQueue
  split
  · exact (steady_completeHeld ..).trans (.frame rfl rfl rfl rfl)
  · exact .refl p

theorem steady_haltList (p : Part) : Steady p p.haltList := by
  unfold haltList
  split
  · exact steady_complete (.refl p)
  · exact .refl p

theorem steady_foldl {β : Type} (f : Part → β → Part) (h : ∀ p b, Steady p (f p b)) (l : List β) (p : Part) :
    Steady p (l.foldl f p) := by
  induction l generalizing p with
  | nil => exact .refl p
  | cons b l ih => exact (h p b).trans (ih _)

theorem halting_state (p : Part) : p.halting.engine.state = .halting := by
  unfold halting discardRead
  rw [setPath_engine, (steady_haltList _).state, (steady_foldl _ steady_haltQueue _ _).state]
  rfl

theorem halting_path (p : Part) : p.halting.command.path = discardPath p.halting.command.path := by
  unfold halting discardRead
  rw [setPath_path]
  exact discardPath_idem _

theorem moves_halt (p : Part) : Moves W p.halting p.halt :=
  ((moves_dropOn _ _ _ _).trans (moves_offerAll _ _)).trans (moves_takeOver _)

theorem timeline_halt (p : Part) (c : Fin 32) : p.halt.timeline c = [] := by
  refine Moves.empty (W := fun _ => True) ((moves_offerAll _ _).trans (moves_takeOver _)) (fun c => ?_) c
  rw [timeline_dropOn, if_pos (List.mem_finRange c)]
  simp

theorem idle_controlHalt (h : p.IdleOutsideRunning) : p.controlHalt.IdleOutsideRunning := by
  unfold controlHalt
  split
  · have hm := moves_halt (W := fun _ => True) p
    refine idle_of_stopped ?_ p.timeline_halt ?_
    · rw [hm.engine, halting_state]
      decide
    · rw [hm.command]
      exact p.halting_path
  · exact h.steady (steady_refuseControl ..)

theorem timeline_softReset (p : Part) (c : Fin 32) : p.softReset.timeline c = [] := by
  refine (moves_requestSafe (W := fun _ => True) _ _ _).empty (fun c => ?_) c
  simp [timeline, softResetBlocks]

theorem idle_softReset (p : Part) : p.softReset.IdleOutsideRunning := by
  have hm := moves_requestSafe (W := fun _ => True) p.softResetBlocks (List.finRange 32) .reset
  refine idle_of_stopped ?_ p.timeline_softReset ?_
  · rw [show p.softReset.engine = p.softResetBlocks.engine from hm.engine]
    simp [softResetBlocks, Engine.reset]
  · rw [show p.softReset.command = p.softResetBlocks.command from hm.command]
    rfl

theorem idle_controlWrite (h : p.IdleOutsideRunning) (op : BitVec 4) : (p.controlWrite op).IdleOutsideRunning := by
  unfold controlWrite
  split
  · exact idle_controlStart h
  · exact idle_controlHalt h
  · exact idle_softReset p
  · exact h.steady (steady_refuseControl ..)

theorem idle_registerWrite (h : p.IdleOutsideRunning) (o : BitVec 8) (v : BitVec 32) :
    (p.registerWrite o v).IdleOutsideRunning := by
  unfold registerWrite
  split
  · exact idle_controlWrite h _
  · exact h.steady (.frame rfl rfl rfl rfl)
  · exact h.steady (.frame rfl rfl rfl rfl)
  · exact h.steady (steady_notifyWrite ..)
  · exact h.steady (.frame rfl rfl rfl rfl)
  · exact h.steady (.frame rfl rfl rfl rfl)
  · exact h

/-! ### The Configuration Block -/

theorem idle_loadFailed (h : p.IdleOutsideRunning) (hr : p.engine.state ≠ .running) (f : LoadFault) :
    (p.loadFailed f).IdleOutsideRunning :=
  idle_of_stopped (by simp [loadFailed]) (h.idle hr).1 (h.idle hr).2

theorem kept_unforceEngine (p : Part) : Kept p p.unforceEngine :=
  kept_foldl _ (fun p c => (moves_unforceChannel p _ c).kept) _ _

theorem idle_loadBlock (p : Part) (b : Block) : (p.endBlockRead.loadBlock b).IdleOutsideRunning := by
  unfold loadBlock
  refine idle_of_running (by simp only [modEngine_engine]) ?_
  rw [modEngine_monitor]
  refine (kept_unforceEngine _).block ?_
  simp [endBlockRead]

theorem idle_configurationBlockArrives (h : p.IdleOutsideRunning) (data : List Byte)
    (hp : p.configurationBlockArrives data = some p') : p'.IdleOutsideRunning := by
  unfold configurationBlockArrives at hp
  dsimp only at hp
  split at hp
  · rename_i hb
    split at hp
    · cases hp; exact idle_loadBlock ..
    · cases hp; exact idle_loadFailed h (h.stopped_of_block (by simp_all)) _
  · cases hp

theorem idle_accessFault (h : p.IdleOutsideRunning) (o : AccessOwner) (a : Access) (f : AccessFault)
    (ha : p.accessOf o = some a) : (p.accessFault o a f).IdleOutsideRunning := by
  cases o with
  | commandUnit | stepScheduler => exact h.steady (steady_commandReadFault ..)
  | postingUnit => exact h.steady (steady_writeFault ..)
  | engineControl =>
    refine idle_loadFailed h (h.stopped_of_block ?_) _
    rw [show p.monitor.block = some a from ha]
    rfl

theorem idle_accessTimeout (h : p.IdleOutsideRunning) (o : AccessOwner) (hp : p.accessTimeout o = some p') :
    p'.IdleOutsideRunning := by
  unfold accessTimeout at hp
  split at hp
  · cases hp
  · split at hp
    · cases hp; exact idle_accessFault h _ _ _ ‹_›
    · cases hp

theorem idle_busErrorResponse (h : p.IdleOutsideRunning) (o : AccessOwner) (hp : p.busErrorResponse o = some p') :
    p'.IdleOutsideRunning := by
  unfold busErrorResponse at hp
  split at hp
  · cases hp
  · cases hp; exact idle_accessFault h _ _ _ ‹_›

theorem steady_tick (p : Part) : Steady p p.tick :=
  ⟨⟨rfl, fun h => congrArg (Option.map Access.tick) h⟩, .inl rfl, id⟩

end Part

/-- No command stores a step or leaves a command read live outside RUNNING, or enters RUNNING with the block's read open. -/
theorem idle_effect {i : Instr} {p p' : Part} (h : p.IdleOutsideRunning) (hp : effect i p = some p') :
    p'.IdleOutsideRunning := by
  cases i
  case hardReset | resetnNegated => cases hp; exact h
  case start | halt | softReset | unknownControlOperation => exact Option.some.inj hp ▸ Part.idle_controlWrite h _
  case postTail | resetQueue | consume | unrecognisedNotifyOperation =>
    exact Option.some.inj hp ▸ h.steady (Part.steady_notifyWrite ..)
  case intCauseWrite | intEnableWrite | tclkEdge => cases hp; exact h.steady (.frame rfl rfl rfl rfl)
  case lateAnswer => cases hp; exact h
  case registerWrite => exact Option.some.inj hp ▸ Part.idle_registerWrite h _ _
  case dueTimeEvent => exact h.steady (Part.moves_dueTimeEvent _ _ hp).steady
  case deadTimeExpiry => exact h.steady (Part.moves_deadTimeExpiry _ hp).steady
  case safeSequenceEntryDue => exact h.steady (Part.moves_safeSequenceEntryDue _ _ hp).steady
  case sampleEvent => exact h.steady (Part.steady_sampleEvent _ _ hp)
  case primaryStop => exact h.steady (Part.steady_primaryStop hp)
  case windowEnd => exact h.steady (Part.steady_windowEnd hp)
  case referenceTimeout => exact h.steady (Part.steady_referenceTimeout hp)
  case holdoffExpiry => exact h.steady (Part.steady_holdoffExpiry _ hp)
  case fetchGrant => exact Part.idle_fetchGrant h hp
  case recordArrives => exact Part.idle_recordArrives h _ hp
  case listArrives => exact Part.idle_listArrives h _ hp
  case completionWriteAnswered => exact h.steady (Part.steady_completionWriteAnswered hp)
  case noticeWriteAnswered => exact h.steady (Part.steady_noticeWriteAnswered hp)
  case configurationBlockArrives => exact Part.idle_configurationBlockArrives h _ hp
  case accessTimeout => exact Part.idle_accessTimeout h _ hp
  case busErrorResponse => exact Part.idle_busErrorResponse h _ hp
  case timebaseTick =>
    exact Option.some.inj hp ▸ ((h.steady (Part.moves_endWaits p).steady).settle).steady (Part.steady_tick _)
  case refEdge => exact h.steady (Part.steady_refEdge hp)
  case primaryIndicationAbsent => exact h.steady (Part.steady_primaryIndicationAbsent hp)
  all_goals exact Part.idle_arrival h _ _ hp

theorem mayPlace_running {p : Part} (h : p.IdleOutsideRunning) (hm : p.mayPlace) : p.engine.state = .running :=
  hm.elim id h.running_of_live

/-- The block's arrival finds the store empty, and places no step; every other command keeps the quotas and stays within them. -/
theorem inUse_le_quota_effect {i : Instr} {p p' : Part} (h : p.IdleOutsideRunning)
    (hq : ∀ q, p.inUse q ≤ (p.queue q).quota) (hp : effect i p = some p') (q : Fin 8) :
    p'.inUse q ≤ (p'.queue q).quota := by
  have hc := effect_changes hp
  by_cases hl : loads i
  · obtain ⟨data, rfl⟩ := hl
    have hb : p.monitor.block.isSome = true := by
      by_contra hn
      simp [effect, Part.configurationBlockArrives, hn] at hp
    have hr := h.stopped_of_block hb
    rw [Part.inUse_of_empty (hc.empty (fun hm => hr (mayPlace_running h hm)) (h.idle hr).1)]
    exact Nat.zero_le _
  · exact hc.inUse_le_quota hl hq q

/-- Settles O57: the quotas of the store, which is empty outside RUNNING, and the number of its slots. -/
theorem quotasAreKept : Obligations.QuotasAreKept := by
  intro s s' hk hb h
  obtain ⟨hq, hi⟩ := Part.quotasKept_iff.1 hk
  have settled (p : Part) : Part.Changes False True p p.settle := Part.changes_settle p
  rw [Part.quotasKept_iff]
  rcases step_part h with e | e | e | e | ⟨i, p, hp, e⟩ <;> rw [e]
  · have hc : Part.Changes False True s.part s.part.backupPeriod := Part.changes_backupPeriod _
    refine ⟨⟨Part.Changes.inUse_le_quota hc id hq, hi.steady ?_⟩, Part.Changes.storeBounded hc hb⟩
    rw [Part.backupPeriod_eq]
    exact .frame rfl rfl rfl rfl
  · have ht := s.part.timeline_hardReset
    refine ⟨⟨fun q => ?_, Part.idle_of_stopped (fun h => by cases h) ht rfl⟩, ?_⟩
    · rw [Part.inUse_of_empty ht]
      exact Nat.zero_le _
    · show s.part.hardReset.storedSteps ≤ Config.storeSlots
      rw [show s.part.hardReset.storedSteps = Part.reset.storedSteps from rfl]
      decide
  · exact ⟨⟨hq, hi.idle, hi.block⟩, hb⟩
  · exact ⟨⟨hq, hi⟩, hb⟩
  · exact ⟨⟨Part.Changes.inUse_le_quota (settled p) id (inUse_le_quota_effect hi hq hp), (idle_effect hi hp).settle⟩,
      Part.Changes.storeBounded ((effect_changes hp).trans (Part.changes_settle p)) hb⟩

end Sys2Proof.Machine
end

section
/-!
The part after a hard reset.
-/

namespace Sys2Proof.Machine

namespace Part

/-! ### The records of a part at its reset values -/

@[simp] theorem reset_channel (c : Fin 32) : Part.reset.channel c = Channel.reset := by
  simp [channel, Part.reset, Output.reset]
@[simp] theorem reset_pair (k : Fin 16) : Part.reset.pair k = Pair.reset := by simp [pair, Part.reset, Output.reset]
@[simp] theorem reset_timeline (c : Fin 32) : Part.reset.timeline c = [] := by simp [timeline, Part.reset]
@[simp] theorem reset_entry (i : Fin 64) : Part.reset.entry i = none := by simp [entry, Part.reset]
@[simp] theorem reset_domain (d : Fin 8) : Part.reset.domain d = Domain.reset := by simp [domain, Part.reset]
@[simp] theorem reset_input (n : Fin 16) : Part.reset.input n = FaultInput.reset := by simp [input, Part.reset]
@[simp] theorem reset_queue (q : Fin 8) : Part.reset.queue q = QueueContext.reset := by
  simp [queue, Part.reset, CommandUnit.reset]
@[simp] theorem reset_cq (n : Fin 4) : Part.reset.cq n = CompletionContext.reset := by
  simp [cq, Part.reset, Posting.reset]
@[simp] theorem reset_inUse (q : Fin 8) : Part.reset.inUse q = 0 := inUse_of_empty reset_timeline q

end Part

/-- Settles O2: the reset values of each block. -/
theorem resetValues : Obligations.ResetValues := by
  have hw (w : Fin 8) : Part.reset.monitor.windows[w] = MemoryWindow.reset := by simp [Part.reset, Monitor.reset]
  refine ⟨fun c => ⟨Part.reset_channel c, Part.reset_timeline c⟩, Part.reset_pair, Part.reset_entry, fun d => ?_, fun n => ?_,
    ⟨rfl, rfl, rfl, rfl⟩, ⟨rfl, rfl, rfl, rfl, rfl, rfl, rfl, rfl, rfl, rfl, rfl⟩,
    fun q => ⟨Part.reset_queue q, Part.reset_inUse q⟩, ⟨rfl, rfl, rfl⟩, fun n => ⟨Part.reset_cq n, rfl⟩, rfl,
    ⟨rfl, rfl, rfl, rfl, rfl⟩, ⟨rfl, rfl, rfl, rfl, hw⟩, rfl⟩
  · simp only [State.reset, Part.reset_domain]
    exact ⟨rfl, rfl, rfl, rfl, rfl, rfl, rfl, rfl⟩
  · simp only [State.reset, Part.reset_input]
    exact ⟨rfl, rfl, rfl, rfl, rfl, rfl, rfl, rfl, rfl, rfl⟩

/-- Settles O60: at reset no pair is enabled, the store and the pending list are empty, and no domain has a member. -/
theorem invariantsHoldAtReset : Obligations.InvariantsHoldAtReset := by
  have ht := Part.reset_timeline
  refine ⟨?_, fun c => ?_, ⟨fun q => ?_, fun _ => ⟨ht, rfl⟩, fun _ => rfl⟩, ?_, ⟨fun d e _ => ?_, fun k d h => ?_⟩,
    ⟨Nat.zero_le _, Nat.zero_le _⟩⟩
  · simp [State.reset, Part.pairsSafe, Part.pairSafe, Pair.isActive, Pair.reset]
  · rw [show State.reset.part.timeline c = [] from ht c]
    exact .nil
  · rw [show State.reset.part.inUse q = 0 from Part.reset_inUse q]
    exact Nat.zero_le _
  · show Part.reset.storedSteps ≤ Config.storeSlots
    decide
  · simp [State.reset, Domain.reset]
  · simp [State.reset, Pair.reset] at h

end Sys2Proof.Machine
end

section
/-!
The fetch arbiter (R132, R133).
-/

namespace Sys2Proof.Machine

namespace Part

/-- How far a queue stands after the arbiter's pointer, counting upward from the queue after it. -/
def robinDistance (pointer q : Fin 8) : Nat := (q.val + 7 - pointer.val) % 8

theorem robin_getElem (pointer : Fin 8) (n : Nat) (h : n < (robin pointer).length) :
    (robin pointer)[n] = pointer + 1 + Fin.ofNat 8 n := by
  have hn : n < 8 := by simpa [robin] using h
  simp only [robin, List.getElem_map, List.getElem_finRange]
  congr 1
  exact Fin.ext (Nat.mod_eq_of_lt hn).symm

theorem robinDistance_add (pointer : Fin 8) {n : Nat} (h : n < 8) :
    robinDistance pointer (pointer + 1 + Fin.ofNat 8 n) = n := by
  simp only [robinDistance, Fin.val_add, Fin.val_one, Fin.ofNat]
  omega

theorem add_robinDistance (pointer q : Fin 8) : pointer + 1 + Fin.ofNat 8 (robinDistance pointer q) = q := by
  apply Fin.ext
  simp only [robinDistance, Fin.val_add, Fin.val_one, Fin.ofNat]
  omega

theorem robinDistance_lt (pointer q : Fin 8) : robinDistance pointer q < (robin pointer).length := by
  simp only [robin, List.length_map, List.length_finRange, robinDistance]
  omega

theorem robin_getElem_distance (pointer q : Fin 8) :
    (robin pointer)[robinDistance pointer q]'(robinDistance_lt pointer q) = q := by
  rw [robin_getElem, add_robinDistance]

theorem mem_robin (pointer q : Fin 8) : q ∈ robin pointer :=
  List.mem_of_getElem (robin_getElem_distance pointer q)

/-- The first element of the round robin that passes a test is the one at the least distance after the pointer. -/
theorem robinDistance_le_of_find {pointer q : Fin 8} {test : Fin 8 → Bool} (h : (robin pointer).find? test = some q)
    {q' : Fin 8} (hq' : test q' = true) : robinDistance pointer q ≤ robinDistance pointer q' := by
  obtain ⟨-, n, hn, rfl, hfirst⟩ := List.find?_eq_some_iff_getElem.1 h
  have hn8 : n < 8 := by simpa [robin] using hn
  rw [robin_getElem, robinDistance_add pointer hn8]
  by_contra hlt
  have := hfirst (robinDistance pointer q') (by omega)
  rw [robin_getElem_distance, hq'] at this
  cases this

variable {p : Part}

theorem freeEntry_isSome : p.freeEntry.isSome = true ↔ ∃ i, p.entry i = none := by
  simp [freeEntry, List.find?_isSome]

theorem hasRoom_iff (q : Fin 8) (n : Nat) :
    p.hasRoom q n = true ↔ n ≤ 1024 - p.storedSteps ∧ p.inUse q + n ≤ (p.queue q).quota := by
  simp only [hasRoom, Bool.and_eq_true]
  exact and_congr decide_eq_true_iff decide_eq_true_iff

theorem hasTracking_iff (h : Header) :
    p.hasTracking h = true ↔ (h.flags.getLsbD 0 = true → ∃ i, p.entry i = none) := by
  simp only [hasTracking, completeOnExecution, Bool.or_eq_true, Bool.not_eq_true', freeEntry_isSome]
  cases h.flags.getLsbD 0 <;> simp

theorem creditFree_iff (n : Fin 4) : p.creditFree n = true ↔
    (p.cq n).reserved + p.waitingCompletions n + ((p.cq n).tail + (p.cq n).size - (p.cq n).head) % (p.cq n).size <
      (p.cq n).size - 1 := by
  unfold creditFree
  exact decide_eq_true_iff

/-- R132: an ACTIVE queue is eligible with a record waiting and a credit free, a HOLDING one when its command may be retried. -/
theorem eligible_iff (q : Fin 8) : p.eligible q = true ↔
    ((p.queue q).state = .active ∧ (p.queue q).head ≠ (p.queue q).tail ∧ p.creditFree (p.queue q).cq = true) ∨
      ((p.queue q).state = .holding ∧ ∃ held, (p.queue q).hold = some held ∧ p.retryReady q held = true) := by
  unfold eligible
  cases hs : (p.queue q).state with
  | active => simp
  | holding => cases hh : (p.queue q).hold <;> simp
  | disabled | error => simp

theorem firstEligible_none (urgent : Bool) (pointer : Fin 8) :
    p.firstEligible urgent pointer = none ↔ ∀ q, (p.queue q).urgent = urgent → p.eligible q = false := by
  simp only [firstEligible, List.find?_eq_none, mem_robin, true_implies, Bool.and_eq_true, beq_iff_eq, not_and,
    Bool.not_eq_true]

theorem granted_none : p.granted = none ↔ ∀ q, p.eligible q = false := by
  unfold granted
  split
  · rename_i q hq
    have := List.find?_some hq
    simp only [Bool.and_eq_true] at this
    simp only [reduceCtorEq, false_iff, not_forall, Bool.not_eq_false]
    exact ⟨q, this.2⟩
  · rename_i hu
    rw [firstEligible_none] at hu ⊢
    refine ⟨fun hn q => ?_, fun h q _ => h q⟩
    cases hq : (p.queue q).urgent
    · exact hn q hq
    · exact hu q hq

/-- R133: the granted queue is the first eligible one of its class, and no URGENT queue is passed over. -/
theorem granted_some {q : Fin 8} (h : p.granted = some q) :
    ((p.queue q).urgent = false → ∀ q', (p.queue q').urgent = true → p.eligible q' = false) ∧
      p.firstEligible (p.queue q).urgent
        (if (p.queue q).urgent then p.command.urgentPointer else p.command.normalPointer) = some q := by
  have urgent_of {u : Bool} {pointer : Fin 8} (h : p.firstEligible u pointer = some q) : (p.queue q).urgent = u := by
    have := List.find?_some h
    simp only [Bool.and_eq_true, beq_iff_eq] at this
    exact this.1
  unfold granted at h
  split at h
  · rename_i q' hu
    obtain rfl := Option.some.inj h
    have := urgent_of hu
    rw [this]
    exact ⟨fun h => (Bool.true_eq_false.mp h).elim, hu⟩
  · rename_i hn
    have := urgent_of h
    rw [this]
    exact ⟨fun _ => (firstEligible_none _ _).1 hn, h⟩

end Part

/-- Settles O17, by the first eligible queue of the round robin. -/
theorem arbiterGrantsInTurn : Obligations.ArbiterGrantsInTurn := by
  intro p
  refine ⟨fun q => ?_, Part.granted_none, fun q hq => ?_⟩
  · rw [Part.eligible_iff]
    simp only [Part.creditFree_iff, Part.retryReady, Bool.and_eq_true, Part.hasRoom_iff, Part.hasTracking_iff, and_assoc]
  · obtain ⟨hu, hf⟩ := Part.granted_some hq
    have ht := List.find?_some hf
    simp only [Bool.and_eq_true] at ht
    refine ⟨ht.2, hu, fun q' hc he => Part.robinDistance_le_of_find hf ?_⟩
    simp [hc, he]

end Sys2Proof.Machine
end

section
/-!
Admission (R7 to R19): the checks of the model read as the table of R7, and what an admitted command leaves.
-/

namespace Sys2Proof.Machine

theorem firstFailing_eq (test : RawStep → Bool) (steps : List RawStep) :
    firstFailing test steps = if steps.all test then none else some (steps.findIdx (fun r => !test r) + 1) := by
  unfold firstFailing
  rw [List.findIdx?_eq_guard_findIdx_lt]
  have : steps.findIdx (fun r => !test r) < steps.length ↔ ¬steps.all test = true := by simp
  by_cases hall : steps.all test = true
  · simp [hall, Option.guard, this]
  · simp [hall, Option.guard, this]

theorem firstFailing_congr {f g : RawStep → Bool} {steps : List RawStep} (h : ∀ r ∈ steps, f r = g r) :
    firstFailing f steps = firstFailing g steps := by
  unfold firstFailing
  induction steps with
  | nil => rfl
  | cons r steps ih =>
    simp only [List.findIdx?_cons, h r List.mem_cons_self]
    have := ih fun x hx => h x (List.mem_cons_of_mem _ hx)
    split
    · rfl
    · exact congrArg _ (Option.map_injective (Nat.succ_injective) this ▸ rfl)

theorem firstFailing_none {test : RawStep → Bool} {steps : List RawStep} (h : firstFailing test steps = none) :
    ∀ r ∈ steps, test r = true := by
  rw [firstFailing_eq] at h
  split at h
  · exact List.all_eq_true.1 ‹_›
  · cases h

/-- The refusal a table gives: the status and aux of the first row that applies. -/
def firstRow (table : List (Bool × Status × Nat)) : Option (Status × Nat) :=
  (table.find? fun row => row.1).map fun row => row.2

theorem firstRow_cons (b : Bool) (st : Status) (aux : Nat) (table : List (Bool × Status × Nat)) :
    firstRow ((b, st, aux) :: table) = if b then some (st, aux) else firstRow table := by
  cases b <;> rfl

/-- A row that names the first step failing a check applies exactly when the check fails a step. -/
theorem firstRow_stepCheck (steps : List RawStep) (st : Status) (test : RawStep → Bool)
    (table : List (Bool × Status × Nat)) :
    firstRow (Part.stepCheck steps st test :: table) =
      match firstFailing test steps with
      | some n => some (st, n)
      | none => firstRow table := by
  unfold Part.stepCheck
  rw [firstRow_cons, firstFailing_eq]
  cases steps.all test <;> rfl

theorem firstRow_none {table : List (Bool × Status × Nat)} (h : (table.find? fun row => row.1) = none) :
    firstRow table = none := by rw [firstRow, h]; rfl

theorem firstRow_some {table : List (Bool × Status × Nat)} {b : Bool} {st : Status} {aux : Nat}
    (h : (table.find? fun row => row.1) = some (b, st, aux)) : firstRow table = some (st, aux) := by
  rw [firstRow, h]; rfl

namespace Part

variable {p : Part}

theorem not_hasRoom (q : Fin 8) (n : Nat) : (!p.hasRoom q n) =
    (decide (Config.storeSlots - p.storedSteps < n) || decide ((p.queue q).quota < p.inUse q + n)) := by
  rw [Bool.eq_iff_iff]
  simp only [hasRoom, freeSlots, Bool.not_eq_true', Bool.and_eq_false_iff, Bool.or_eq_true]
  exact or_congr (decide_eq_false_iff_not.trans (by simp)) (decide_eq_false_iff_not.trans (by simp))

theorem not_hasTracking (h : Header) : (!p.hasTracking h) =
    (completeOnExecution h && (List.finRange 64).all fun i => (p.entry i).isSome) := by
  unfold hasTracking freeEntry
  rw [Bool.not_or, Bool.not_not, List.isSome_find?, List.all_eq_not_any_not]
  simp

/-- R7: the checks 2 to 7 are the table's rows. -/
theorem admissionRefusal_eq (p : Part) (q : Fin 8) (h : Header) (steps : List RawStep) :
    p.admissionRefusal q h steps = firstRow (p.admissionTable q h true steps) := by
  unfold admissionRefusal admissionTable
  simp only [firstRow_cons, firstRow_stepCheck, Bool.not_true, Bool.false_eq_true, if_false, not_hasRoom,
    not_hasTracking]
  rw [show (fun r : RawStep => decide (r.channel < 32) && decide (dueTime h p.now r ≤ maxTime) &&
    r.bodyValid (max (dueTime h p.now r) p.now)) = fun r => r.valid h p.now from rfl]
  cases hv : firstFailing (fun r => r.valid h p.now) steps with
  | some n => rfl
  | none =>
    have hm : firstFailing (fun r => p.maskAllows q r.chan) steps =
        firstFailing (fun r => (p.queue q).mask.getLsbD r.channel) steps := by
      refine firstFailing_congr fun r hr => ?_
      have hc := firstFailing_none hv r hr
      simp only [RawStep.valid, Bool.and_eq_true, decide_eq_true_eq] at hc
      rw [maskAllows, RawStep.chan, Fin.val_ofNat, Nat.mod_eq_of_lt hc.1.1]
    have hl : (if refuseLate h then firstFailing (fun r => !r.isLate h p.now) steps else none) =
        firstFailing (fun r => !(refuseLate h && decide (dueTime h p.now r < p.now))) steps := by
      cases refuseLate h
      · exact ((firstFailing_eq _ steps).trans (if_pos (by simp))).symm
      · rfl
    rw [hm, hl]
    rfl

/-- R7, R8: the seven checks of the two single-record kinds are the table's rows. -/
theorem inlineRefusal_eq (p : Part) (q : Fin 8) (h : Header) (cmd : Command) :
    p.inlineRefusal q h cmd = firstRow (p.admissionTable q h (countValid cmd) (inlineSteps cmd)) := by
  unfold inlineRefusal
  cases hc : countValid cmd
  · rfl
  · exact p.admissionRefusal_eq q h _

/-! ### The effect of an admission -/

/-- The steps of a command that go to channel c. -/
def stepsOn (c : Fin 32) (steps : List RawStep) : List RawStep := steps.filter fun r => r.chan == c

/-- R13: admitted steps are placed one after another, each in its channel's timeline. -/
theorem timeline_placeAdmitted (p : Part) (q : Fin 8) (h : Header) (link : Option (Fin 64)) (steps : List RawStep)
    (c : Fin 32) : (p.placeAdmitted q h link steps).timeline c =
      placeSteps ((stepsOn c steps).map (p.admittedStep q h link)) (p.timeline c) := by
  induction steps generalizing p with
  | nil => rfl
  | cons r steps ih =>
    refine (ih _).trans ?_
    rw [timeline_setTimeline]
    by_cases hc : r.chan = c
    · subst hc
      simp only [stepsOn, List.filter_cons, beq_self_eq_true, if_true]
      rfl
    · rw [if_neg (Ne.symm hc)]
      simp only [stepsOn, List.filter_cons, beq_iff_eq, hc, if_false]
      rfl

theorem placeAdmitted_eq (p : Part) (q : Fin 8) (h : Header) (link : Option (Fin 64)) (steps : List RawStep) :
    p.placeAdmitted q h link steps = { p with timelines := (p.placeAdmitted q h link steps).timelines } := by
  induction steps generalizing p with
  | nil => rfl
  | cons r steps ih => exact ih _

theorem issueWrite_withTimelines (p : Part) (tls : Timelines) (purpose : AccessPurpose) (ring : FatalRing) (a : Nat)
    (data : List Byte) : ({ p with timelines := tls } : Part).issueWrite purpose ring a data =
      { p.issueWrite purpose ring a data with timelines := tls } := by
  unfold issueWrite
  by_cases h : p.monitor.allows true a data.length = true
  · refine (if_pos h).trans ?_
    rw [if_pos h]
    rfl
  · refine (if_neg h).trans ?_
    rw [if_neg h]
    rfl

theorem issueNext_withTimelines (p : Part) (tls : Timelines) :
    ({ p with timelines := tls } : Part).issueNext = { p.issueNext with timelines := tls } := by
  unfold issueNext
  by_cases h : (p.isPosting && p.posting.fault.isNone && p.monitor.posting.isNone) = true
  · refine (if_pos h).trans ?_
    rw [if_pos h]
    cases p.posting.writeList with
    | nil => rfl
    | cons i rest =>
      cases i with
      | completion n c => exact issueWrite_withTimelines p tls _ _ _ _
      | notice n => exact issueWrite_withTimelines (p.modPosting fun u => { u with
          taken := some (p.posting.ring.sequence, p.posting.ring.lost)
          ring := { u.ring with sequence := (p.posting.ring.sequence + 1) % 2 ^ 32, lost := 0 } }) tls _ _ _ _
  · refine (if_neg h).trans ?_
    rw [if_neg h]

/-- Handing over a completion does not look at the timelines. -/
theorem complete_withTimelines (p : Part) (tls : Timelines) (q : Fin 8) (h : Header) (st : Status) (aux : Nat) :
    ({ p with timelines := tls } : Part).complete q h st aux = { p.complete q h st aux with timelines := tls } := by
  unfold complete handCompletion
  by_cases hp : p.isPosting = true
  · refine (if_pos hp).trans ?_
    rw [if_pos hp]
    exact issueNext_withTimelines ((p.returnCredit (p.queue q).cq).modPosting fun u => { u with
      writeList := u.writeList ++ [.completion (p.queue q).cq
        { queue := q, id := h.id, status := st, aux := aux, drops := 0, value := p.now }] }) tls
  · refine (if_neg hp).trans ?_
    rw [if_neg hp]

theorem freeEntry_lowest {i : Fin 64} (h : p.freeEntry = some i) :
    p.entry i = none ∧ ∀ j : Fin 64, j < i → p.entry j ≠ none := by
  obtain ⟨hi, n, hn, rfl, hfirst⟩ := List.find?_eq_some_iff_getElem.1 h
  refine ⟨Option.isNone_iff_eq_none.1 hi, fun j hj he => ?_⟩
  have := hfirst j.val (by simpa [Fin.lt_def] using hj)
  simp [he] at this

theorem hasTracking_of_admissionRefusal {q : Fin 8} {h : Header} {steps : List RawStep}
    (hr : p.admissionRefusal q h steps = none) : p.hasTracking h = true := by
  unfold admissionRefusal at hr
  repeat' split at hr
  all_goals simp_all

theorem hasTracking_of_inlineRefusal {q : Fin 8} {h : Header} {cmd : Command}
    (hr : p.inlineRefusal q h cmd = none) : p.hasTracking h = true := by
  unfold inlineRefusal at hr
  split at hr
  · exact hasTracking_of_admissionRefusal hr
  · cases hr

theorem admits_placed (hp : p.timelinesOrdered) (q : Fin 8) (h : Header) (link : Option (Fin 64)) (steps : List RawStep)
    (c : Fin 32) : Ordered ((p.placeAdmitted q h link steps).timeline c) ∧
      ∀ t : Nat, batchAt t ((p.placeAdmitted q h link steps).timeline c) = batchAt t (p.timeline c) ++
        batchAt t ((steps.filter fun r => r.chan == c).map (p.admittedStep q h link)) := by
  rw [timeline_placeAdmitted]
  exact ⟨placeSteps_ordered _ (hp c), batchAt_placeSteps _ (hp c)⟩

/-- R13: what the admission of a whole command does. -/
theorem admits_admission {h : Header} (hp : p.timelinesOrdered) (ht : p.hasTracking h = true) (q : Fin 8)
    (steps : List RawStep) : p.admits q h steps (p.admission q h steps) := by
  unfold admission
  dsimp only
  split
  · rename_i i hi
    have hc : completeOnExecution h = true := by
      by_contra hc
      simp [hc] at hi
    rw [if_pos hc] at hi
    refine ⟨some i, admits_placed hp q h (some i) steps, hc, (freeEntry_lowest hi).1, (freeEntry_lowest hi).2, ?_⟩
    conv_lhs => rw [placeAdmitted_eq]
    rfl
  · rename_i hi
    have hc : completeOnExecution h = false := by
      by_contra hc
      simp only [Bool.not_eq_false] at hc
      simp [hasTracking, hc] at ht
      simp [hc] at hi
      simp [hi] at ht
    refine ⟨none, ?_, hc, ?_⟩
    · rw [placeAdmitted_eq, complete_withTimelines]
      exact admits_placed hp q h none steps
    · conv_lhs => rw [placeAdmitted_eq, complete_withTimelines]
      rw [complete_timelines]
      rfl

/-! ### An admission meets no posting fault -/

theorem Calm.placeAdmitted {W : Fin 4 → Prop} (hc : Calm W p) (q : Fin 8) (h : Header) (link : Option (Fin 64))
    (steps : List RawStep) : Calm W (p.placeAdmitted q h link steps) := by
  rw [placeAdmitted_eq]
  exact hc.congr rfl rfl rfl rfl

theorem queue_placeAdmitted (p : Part) (q : Fin 8) (h : Header) (link : Option (Fin 64)) (steps : List RawStep)
    (q' : Fin 8) : (p.placeAdmitted q h link steps).queue q' = p.queue q' := by
  rw [placeAdmitted_eq]
  rfl

theorem Calm.admission {W : Fin 4 → Prop} {q : Fin 8} (hc : Calm W p) (hW : W (p.queue q).cq) (h : Header)
    (steps : List RawStep) : Calm W (p.admission q h steps) := by
  unfold Part.admission
  dsimp only
  split
  · refine (hc.placeAdmitted q h _ steps).setEntry _ _ fun e he => ?_
    obtain rfl := Option.some.inj he
    exact hW
  · refine (hc.placeAdmitted q h none steps).complete ?_ h _ _
    rw [queue_placeAdmitted]
    exact hW

theorem Calm.scheduleInline {W : Fin 4 → Prop} {q : Fin 8} (hc : Calm W p) (hW : W (p.queue q).cq) (h : Header)
    (cmd : Command) : Calm W (p.scheduleInline q h cmd) := by
  unfold Part.scheduleInline
  split
  · exact hc.admission hW h _
  · split
    · exact hc.congr rfl rfl rfl rfl
    · exact hc.complete hW h _ _

theorem Calm.admitList {W : Fin 4 → Prop} {q : Fin 8} (hc : Calm W p) (hW : W (p.queue q).cq) (h : Header)
    (steps : List RawStep) : Calm W (p.admitList q h steps) := by
  unfold Part.admitList
  split
  · exact hc.admission hW h _
  · exact hc.complete hW h _ _

end Part

/-- An event whose effect meets no posting fault in a RUNNING engine takes the machine to that effect. -/
theorem takes_of_event {i : Instr} {f : Part → Option Part} {s : State} {p : Part} {W : Fin 4 → Prop}
    (hi : exec i s = event f s) (hr : s.part.resetAsserted = false) (hp : f s.part = some p) (hc : Part.Calm W p)
    (he : p.engine.state = .running) : takes i s p := by
  unfold takes
  rw [hi, event_some hr hp, Part.settle_running hc.fault he]

/-- The two single-record kinds of scheduling command. -/
def isInline : Command → Bool
  | .schedule _ | .scheduleRepeating _ => true
  | _ => false

theorem Part.process_inline {cmd : Command} (hk : isInline cmd = true) (p : Part) (q : Fin 8) (h : Header) :
    p.process q h cmd = p.scheduleInline q h cmd := by
  cases cmd with
  | schedule b => rfl
  | scheduleRepeating b => rfl
  | _ => cases hk

/-- A SCHEDULE or SCHEDULE REPEATING that is ready is admitted, parked or refused, and that is all. -/
theorem inline_takes {i : Instr} {h : Header} {cmd : Command} {s : State} {q : Fin 8}
    (hi : i.record? = some (h, cmd)) (hk : isInline cmd = true) (hr : s.part.ready q = true) :
    takes i s ((s.part.taken q).scheduleInline q h cmd) := by
  refine ready_takes hi hr (Part.process_inline hk _ q h) ?_ ?_
  · exact ((Part.ready_calm hr).scheduleInline (Part.ready_owes hr) h cmd).fault
  · exact (Part.kept_scheduleInline _ q h cmd).state.trans (Part.ready_running hr)

end Sys2Proof.Machine
end

section
/-!
The scheduling commands: admitted whole, refused or parked (R7 to R19), the list command (R17), and the grants of the fetch
arbiter (R133, R135).
-/

namespace Sys2Proof.Machine

theorem inline_record {i : Instr} {h : Header} {cmd : Command}
    (hi : (∃ b, i = .schedule h b ∧ cmd = .schedule b) ∨ ∃ b, i = .scheduleRepeating h b ∧ cmd = .scheduleRepeating b) :
    i.record? = some (h, cmd) ∧ isInline cmd = true := by
  rcases hi with ⟨b, rfl, rfl⟩ | ⟨b, rfl, rfl⟩ <;> exact ⟨rfl, rfl⟩

/-- Settles O25, by the model's checks read as the table of R7, and by the order a placed step takes in its timeline. -/
theorem scheduleIsAdmittedWhole : Obligations.ScheduleIsAdmittedWhole := by
  intro i h cmd s q hi hr ho T hT
  obtain ⟨hrec, hk⟩ := inline_record hi
  have hn : T.inlineRefusal q h cmd = none := (T.inlineRefusal_eq q h cmd).trans (firstRow_none hT)
  refine ⟨_, inline_takes hrec hk hr, ?_⟩
  unfold Part.scheduleInline
  rw [hn]
  exact Part.admits_admission (p := T) ho (Part.hasTracking_of_inlineRefusal hn) q _

theorem Part.parks_iff (p : Part) (q : Fin 8) (status : Status) (n : Nat) : p.parks q status n = true ↔
    (p.queue q).holdWhenFull = true ∧ (status = .noTracking ∨ (status = .noSpace ∧ n ≤ (p.queue q).quota)) := by
  simp only [parks, Bool.and_eq_true, Bool.or_eq_true, beq_iff_eq]
  exact and_congr Iff.rfl (or_comm.trans (or_congr Iff.rfl (and_congr Iff.rfl decide_eq_true_iff)))

/-- Settles O26: the first row of the table of R7 refuses the command, or parks it. -/
theorem scheduleIsRefusedOrParked : Obligations.ScheduleIsRefusedOrParked := by
  intro i h cmd s q status aux hi hr T steps hT
  obtain ⟨hrec, hk⟩ := inline_record hi
  have hs : T.inlineRefusal q h cmd = some (status, aux) := (T.inlineRefusal_eq q h cmd).trans (firstRow_some hT)
  have ht := inline_takes hrec hk hr
  unfold Part.scheduleInline at ht
  rw [show (s.part.taken q).inlineRefusal q h cmd = some (status, aux) from hs] at ht
  have hp := T.parks_iff q status steps.length
  by_cases hpark : T.parks q status steps.length = true
  · rw [if_pos (hp.1 hpark)]
    dsimp only at ht
    rwa [if_pos hpark] at ht
  · rw [if_neg fun hc => hpark (hp.2 hc)]
    dsimp only at ht
    rwa [if_neg hpark] at ht

/-! ### SCHEDULE LIST -/

theorem not_listCheck (b : ListBody) : listCheck b = false ↔
    b.stepCount.toNat = 0 ∨ 256 < b.stepCount.toNat ∨ b.listAddress.toNat % 8 ≠ 0 := by
  rw [← Bool.not_eq_true]
  simp only [listCheck, Bool.and_eq_true, decide_eq_true_eq, beq_iff_eq]
  omega

/-- The read of the list of a SCHEDULE LIST is issued (R17): it keeps the command path. -/
def Part.listRead (p : Part) (q : Fin 8) (h : Header) (b : ListBody) : Part :=
  { p with
    monitor := { p.monitor with
      command := some { purpose := .listRead, address := b.listAddress.toNat, length := 8 * b.stepCount.toNat, timer := 0,
                        limit := p.monitor.timeout * 16, data := [] } }
    command := { p.command with path := .list q h false } }

theorem Part.scheduleList_eq (p : Part) (q : Fin 8) (h : Header) (b : ListBody) : p.scheduleList q h b =
    if b.stepCount.toNat = 0 ∨ 256 < b.stepCount.toNat ∨ b.listAddress.toNat % 8 ≠ 0 then p.complete q h .badField 0
    else if p.monitor.allows false b.listAddress.toNat (8 * b.stepCount.toNat) then p.listRead q h b
    else p.complete q h .accessFault 1 := by
  unfold Part.scheduleList
  cases hc : listCheck b with
  | false =>
    rw [if_pos ((not_listCheck b).1 hc)]
    rfl
  | true =>
    rw [if_neg fun h => Bool.false_ne_true (((not_listCheck b).2 h).symm.trans hc)]
    rfl

theorem Part.Calm.scheduleList {W : Fin 4 → Prop} {p : Part} {q : Fin 8} (hc : Part.Calm W p) (hW : W (p.queue q).cq)
    (h : Header) (b : ListBody) : Part.Calm W (p.scheduleList q h b) := by
  rw [Part.scheduleList_eq]
  split
  · exact hc.complete hW h _ _
  · split
    · exact ⟨hc.fault, hc.entries, hc.next⟩
    · exact hc.complete hW h _ _

theorem Part.scheduleList_engine (p : Part) (q : Fin 8) (h : Header) (b : ListBody) :
    (p.scheduleList q h b).engine = p.engine := by
  rw [Part.scheduleList_eq]
  split
  · simp
  · split
    · rfl
    · simp

theorem scheduleList_takes (h : Header) (b : ListBody) {s : State} {q : Fin 8} (hr : s.part.ready q = true) :
    takes (.scheduleList h b) s ((s.part.taken q).scheduleList q h b) := by
  refine ready_takes (i := .scheduleList h b) rfl hr rfl ?_ ?_
  · exact ((Part.ready_calm hr).scheduleList (Part.ready_owes hr) h b).fault
  · exact (congrArg Engine.state (Part.scheduleList_engine ..)).trans (Part.ready_running hr)

theorem awake_iff (p : Part) : p.awake = true ↔ p.resetAsserted = false ∧ p.writesAllowed = true := by
  simp [Part.awake]

/-- A list that arrives for a live read is checked and admitted whole or refused. -/
theorem listArrives_takes {data : List Byte} {s : State} {q : Fin 8} {h : Header} {a : Access}
    (haw : s.part.awake = true) (hrun : s.part.engine.state = .running) (hpath : s.part.command.path = .list q h false)
    (ha : s.part.monitor.command = some a) (hlen : data.length = a.length) :
    takes (.listArrives data) s
      (s.part.freePath.admitList q h ((readStepList data (data.length / 8)).map rawOfEntry)) := by
  obtain ⟨hr, hw⟩ := (awake_iff _).1 haw
  have hc := Part.calm_of_writesAllowed hw
  have hW : s.part.owes (s.part.queue q).cq = true := Part.owes_queue _ _ (.inr (by rw [hpath]; rfl))
  have hfree : Part.Calm (fun n => s.part.owes n = true) s.part.freePath := ⟨hc.fault, hc.entries, hc.next⟩
  refine takes_of_event (i := .listArrives data) (f := Part.listArrives data) rfl hr ?_
    (hfree.admitList (q := q) hW h _) ((Part.kept_admitList _ q h _).state.trans hrun)
  unfold Part.listArrives
  rw [hpath, ha]
  simp only [hlen, if_true, Bool.false_eq_true, if_false]

/-- Settles O27, by the checks of a list when it is asked for and when it arrives. -/
theorem scheduleList : Obligations.ScheduleList := by
  refine ⟨fun h b s q hr => ?_, fun data s q h a haw hrun ho hpath ha hlen => ?_⟩
  · have ht := scheduleList_takes h b hr
    rwa [Part.scheduleList_eq] at ht
  · intro T steps
    have ht := listArrives_takes haw hrun hpath ha hlen
    have heq := T.admissionRefusal_eq q h steps
    unfold Part.admitList at ht
    split
    · rename_i hn
      have hnone := heq.trans (firstRow_none hn)
      rw [show s.part.freePath.admissionRefusal q h steps = none from hnone] at ht
      exact ⟨_, ht, Part.admits_admission (p := T) ho (Part.hasTracking_of_admissionRefusal hnone) q _⟩
    · rename_i status aux hs
      rw [show s.part.freePath.admissionRefusal q h steps = some (status, aux) from heq.trans (firstRow_some hs)] at ht
      exact ht

/-! ### The grants of the arbiter -/

theorem updateAt_updateAt {α : Type} {n : Nat} (v : Vector α n) (i : Fin n) (f g : α → α) :
    updateAt (updateAt v i f) i g = updateAt v i (g ∘ f) := by
  simp [updateAt]

theorem updateAt_id {α : Type} {n : Nat} (v : Vector α n) (i : Fin n) : updateAt v i id = v := by
  simp [updateAt]

namespace Part

variable {p : Part}

/-- A credit reserved and at once returned leaves the part as it was (R151, R152). -/
theorem returnCredit_reserve (p : Part) (n : Fin 4) :
    (p.modCq n fun c => { c with reserved := c.reserved + 1 }).returnCredit n = p := by
  unfold returnCredit modCq modPosting
  dsimp only
  rw [updateAt_updateAt]
  exact congrArg (fun v => { p with posting := { p.posting with cqs := v } }) (updateAt_id p.posting.cqs n)

theorem movePointer_eq (p : Part) (q : Fin 8) : p.movePointer q =
    if (p.queue q).urgent then { p with command := { p.command with urgentPointer := q } }
    else { p with command := { p.command with normalPointer := q } } := by
  unfold movePointer modCommand
  cases (p.queue q).urgent <;> rfl

@[simp] theorem queue_movePointer (p : Part) (q q' : Fin 8) : (p.movePointer q).queue q' = p.queue q' := by
  rw [movePointer_eq]
  split <;> rfl

theorem inlineRefusal_movePointer (p : Part) (q q' : Fin 8) (h : Header) (cmd : Command) :
    (p.movePointer q).inlineRefusal q' h cmd = p.inlineRefusal q' h cmd := by
  rw [movePointer_eq]
  split <;> rfl

theorem hasTracking_congr {p' : Part} (h : p'.table = p.table) (hd : Header) : p'.hasTracking hd = p.hasTracking hd := by
  simp only [hasTracking, freeEntry, entry, h]

theorem fetchGrant_granted {q : Fin 8} (hrun : p.engine.state = .running) (hpath : p.command.path = .free)
    (hg : p.granted = some q) : p.fetchGrant = some (p.grantTo q) := by
  rw [fetchGrant, if_pos ⟨hrun, hpath⟩, hg]
  rfl

theorem grantTo_active {q : Fin 8} (ha : (p.queue q).state = .active) : p.grantTo q = (p.movePointer q).issueFetch q := by
  unfold grantTo
  dsimp only
  rw [queue_movePointer, ha]

theorem grantTo_holding {q : Fin 8} {held : Held} (hs : (p.queue q).state = .holding)
    (hh : (p.queue q).hold = some held) : p.grantTo q = (p.movePointer q).retry q held := by
  unfold grantTo
  dsimp only
  rw [queue_movePointer, hs, hh]

theorem Calm.retry {W : Fin 4 → Prop} {q : Fin 8} (hc : Calm W p) (hW : W (p.queue q).cq) (held : Held) :
    Calm W (p.retry q held) := by
  have hu : Calm W (p.unpark q) := hc.congr rfl rfl rfl rfl
  have hWu : W ((p.unpark q).queue q).cq := by
    unfold unpark
    rw [queue_modQueue, if_pos rfl]
    exact hW
  unfold Part.retry
  split
  · exact hu.admission hWu _ _
  · split
    · exact hc.congr rfl rfl rfl rfl
    · exact hu.complete hWu _ _ _

/-- The part after the read of the record at head has been requested (R135). -/
def fetchRequested (p : Part) (q : Fin 8) : Part :=
  let x := p.queue q
  ((p.modCq x.cq fun n => { n with reserved := n.reserved + 1 }).modMonitor fun m =>
      { m with command := some { purpose := .recordFetch, address := x.base + 64 * x.head, length := 64, timer := 0,
                                 limit := p.monitor.timeout * 16, data := [] } }).modCommand fun u =>
    { u with path := .fetch q false }

/-- The part after no window allowed that read (R137, R173). -/
def fetchRefused (p : Part) (q : Fin 8) : Part :=
  (p.modQueue q fun x => { x with state := .error }).notify
    (.queueError q .fetchViolation (p.queue q).head (p.queue q).tail 0 false)

theorem issueFetch_eq (p : Part) (q : Fin 8) : p.issueFetch q =
    if p.monitor.allows false ((p.queue q).base + 64 * (p.queue q).head) 64 then p.fetchRequested q
    else p.fetchRefused q := by
  unfold issueFetch fetchFault
  dsimp only
  rw [show ((p.modCq (p.queue q).cq fun c => { c with reserved := c.reserved + 1 }).queue q) = p.queue q from rfl,
    returnCredit_reserve]
  rfl

/-- R19, R143: what a retry does, by the table of R7. -/
theorem retry_eq (p : Part) (q : Fin 8) (held : Held) : p.retry q held =
    match p.inlineRefusal q held.header held.command with
    | none => (p.unpark q).admission q held.header (inlineSteps held.command)
    | some (status, aux) =>
      if status = .noSpace ∨ status = .noTracking then
        p.modQueue q fun x => { x with hold := some { held with status := status, aux := aux } }
      else (p.unpark q).complete q held.header status aux := rfl

end Part

/-- A grant of an ACTIVE queue requests its record, or ends at once. -/
theorem grant_active_takes {s : State} {q : Fin 8} (hr : s.part.resetAsserted = false)
    (hf : s.part.posting.fault = none) (hrun : s.part.engine.state = .running) (hpath : s.part.command.path = .free)
    (hg : s.part.granted = some q) (ha : (s.part.queue q).state = .active) :
    takes .fetchGrant s
      (if s.part.monitor.allows false ((s.part.queue q).base + 64 * (s.part.queue q).head) 64
       then (s.part.movePointer q).fetchRequested q
       else ((s.part.movePointer q).fetchRefused q).settle) := by
  have hx : exec .fetchGrant s = event Part.fetchGrant s := rfl
  unfold takes
  rw [hx, event_some hr (Part.fetchGrant_granted hrun hpath hg), Part.grantTo_active ha, Part.issueFetch_eq,
    Part.queue_movePointer]
  by_cases hm : s.part.monitor.allows false ((s.part.queue q).base + 64 * (s.part.queue q).head) 64 = true
  · rw [if_pos hm]
    refine congrArg (fun p => Host.Outcome.next { s with part := p }) ?_
    refine (congrArg Part.settle (if_pos hm)).trans (Part.settle_running hf hrun)
  · rw [if_neg hm]
    exact congrArg (fun p => Host.Outcome.next { s with part := Part.settle p }) (if_neg hm)

/-- A grant of a HOLDING queue retries its parked command. -/
theorem grant_holding_takes {s : State} {q : Fin 8} {held : Held} (haw : s.part.awake = true)
    (hrun : s.part.engine.state = .running) (hpath : s.part.command.path = .free) (hg : s.part.granted = some q)
    (hs : (s.part.queue q).state = .holding) (hh : (s.part.queue q).hold = some held) :
    takes .fetchGrant s ((s.part.movePointer q).retry q held) := by
  obtain ⟨hr, hw⟩ := (awake_iff _).1 haw
  have hc : Part.Calm (fun n => s.part.owes n = true) (s.part.movePointer q) :=
    (Part.calm_of_writesAllowed hw).congr rfl rfl rfl rfl
  have hW : s.part.owes ((s.part.movePointer q).queue q).cq = true := by
    rw [Part.queue_movePointer]
    exact Part.owes_queue _ _ (.inl (by rw [hs]; simp))
  refine takes_of_event (i := .fetchGrant) rfl hr ?_ (hc.retry hW held) ((Part.kept_retry _ q held).state.trans hrun)
  rw [Part.fetchGrant_granted hrun hpath hg, Part.grantTo_holding hs hh]

/-- Settles O18, by the two kinds of grant. -/
theorem grantFetchesOrRetries : Obligations.GrantFetchesOrRetries := by
  refine ⟨fun s q hr hf hrun hpath hg ha => ?_, fun s q held haw ho hrun hpath hg hs hh => ?_⟩
  · have ht := grant_active_takes hr hf hrun hpath hg ha
    intro x moved
    unfold Part.fetchRequested Part.fetchRefused at ht
    rw [Part.queue_movePointer] at ht
    split
    · rename_i hm
      rwa [if_pos hm] at ht
    · rename_i hm
      rwa [if_neg hm] at ht
  · have ht := grant_holding_takes haw hrun hpath hg hs hh
    intro moved freed steps
    rw [Part.retry_eq, Part.inlineRefusal_movePointer, Part.inlineRefusal_eq] at ht
    split
    · rename_i hn
      rw [firstRow_none hn] at ht
      refine ⟨_, ht, Part.admits_admission (p := freed) (fun c => ho c) ?_ q _⟩
      refine (Part.hasTracking_congr (p := s.part) (p' := freed) rfl _).trans ?_
      exact Part.hasTracking_of_inlineRefusal ((Part.inlineRefusal_eq s.part q _ _).trans (firstRow_none hn))
    · rename_i status aux hn
      rw [firstRow_some hn] at ht
      exact ht

end Sys2Proof.Machine
end

section
/-!
The cancels (R24, R25, R27).
-/

namespace Sys2Proof.Machine

namespace Part

variable {p : Part}

/-- A part that differs from another in the store, the table, the Posting Unit and the monitor alone. -/
theorem eq_of_kept {T : Part} (resetAsserted : p.resetAsserted = T.resetAsserted) (engine : p.engine = T.engine)
    (clock : p.clock = T.clock) (output : p.output = T.output) (domains : p.domains = T.domains)
    (inputs : p.inputs = T.inputs) (command : p.command = T.command) (freeIndex : p.freeIndex = T.freeIndex) :
    p = { T with timelines := p.timelines, table := p.table, posting := p.posting, monitor := p.monitor } := by
  cases p
  cases T
  cases resetAsserted
  cases engine
  cases clock
  cases output
  cases domains
  cases inputs
  cases command
  cases freeIndex
  rfl

/-- While the Posting Unit is posting, a completion handed over is the last item of the write list (R151, R153). -/
theorem handCompletion_writeList (hp : p.isPosting = true) (n : Fin 4) (c : Completion) :
    (p.handCompletion n c).posting.writeList = p.posting.writeList ++ [.completion n c] := by
  unfold handCompletion
  rw [if_pos hp, joinWriteList_writeList]
  rfl

theorem isPosting_running (h : p.engine.state = .running) : p.isPosting = true := by
  rw [isPosting, h]

theorem isPosting_of_engine {p' : Part} (h : p'.engine = p.engine) : p'.isPosting = p.isPosting :=
  isPosting_congr (congrArg Engine.state h)

end Part

/-- What an accepted cancel of a command of queue q leaves of the part T its record left (R27). -/
def Part.Cancelled (T : Part) (q : Fin 8) (h : Header) (selects : Fin 32 → Step → Bool) (p : Part) : Prop :=
  p = { T with timelines := p.timelines, table := p.table, posting := p.posting, monitor := p.monitor } ∧
  (∀ c : Fin 32, p.timeline c = (T.timeline c).filter fun x => !selects c x) ∧
  p.posting.writeList.getLast? = some (.completion (T.queue q).cq
    { queue := q, id := h.id, status := .ok, aux := 0, drops := 0,
      value := ((List.finRange 32).map fun c => ((T.timeline c).filter (selects c)).length).sum })

/-- A cancel that drops steps on some channels and completes with their number, while the engine is RUNNING. -/
theorem Part.cancelled_dropOn {T : Part} {l : List (Fin 32)} {which : Step → Bool} {selects : Fin 32 → Step → Bool}
    (hT : T.engine.state = .running) (hs : ∀ c x, selects c x = (decide (c ∈ l) && which x))
    (total : T.countOn l which = ((List.finRange 32).map fun c => ((T.timeline c).filter (selects c)).length).sum)
    (q : Fin 8) (h : Header) :
    T.Cancelled q h selects ((T.dropOn l which .cancelled).completeWith q h 0 (T.countOn l which)) := by
  refine ⟨Part.eq_of_kept ?_ ?_ ?_ ?_ ?_ ?_ ?_ ?_, fun c => ?_, ?_⟩
  case refine_9 =>
    rw [Part.timeline, Part.completeWith_timelines]
    refine (Part.timeline_dropOn T l which .cancelled c).trans ?_
    simp only [hs]
    by_cases hc : c ∈ l <;> simp [hc]
  case refine_10 =>
    unfold Part.completeWith
    rw [Part.handCompletion_writeList, List.getLast?_concat, total]
    · simp [Part.queue]
    · rw [Part.isPosting_of_engine (Part.dropOn_engine ..), Part.isPosting_running hT]
  all_goals simp

/-- The event of a cancel that is accepted meets no posting fault. -/
theorem Part.calm_dropOn_completeWith {T : Part} {W : Fin 4 → Prop} (hc : Part.Calm W T) {q : Fin 8}
    (hW : W (T.queue q).cq) (l : List (Fin 32)) (which : Step → Bool) (h : Header) (value : Nat) :
    Part.Calm W ((T.dropOn l which .cancelled).completeWith q h 0 value) := by
  refine (hc.moves (Part.moves_dropOn T l which .cancelled)).completeWith ?_ h 0 value
  simpa [Part.queue] using hW

theorem Part.cancelTag_eq (T : Part) (q : Fin 8) (h : Header) (tag : BitVec 16) : T.cancelTag q h tag =
    (T.dropOn (List.finRange 32) (Part.cancelTagSelects q tag) .cancelled).completeWith q h 0
      (T.countOn (List.finRange 32) (Part.cancelTagSelects q tag)) := rfl

theorem cancelTag_takes (h : Header) (tag : BitVec 16) {s : State} {q : Fin 8} (hr : s.part.ready q = true) :
    takes (.cancelTag h tag) s ((s.part.taken q).cancelTag q h tag) := by
  refine ready_takes (i := .cancelTag h tag) rfl hr rfl ?_ ?_
  · rw [Part.cancelTag_eq]
    exact (Part.calm_dropOn_completeWith (Part.ready_calm hr) (Part.ready_owes hr) _ _ h _).fault
  · rw [Part.cancelTag_eq, Part.completeWith_engine, Part.dropOn_engine]
    exact Part.ready_running hr

/-- What a CANCEL CHANNEL of a channel of the part selects there (R25). -/
def atOrAfter (h : Header) (x : Step) : Bool := decide (h.time.toNat ≤ x.effective)

theorem Part.cancelChannel_eq (T : Part) (q : Fin 8) (h : Header) (channel : BitVec 8) : T.cancelChannel q h channel =
    if 32 ≤ channel.toNat then T.complete q h .badField 0
    else if (T.queue q).mask.getLsbD channel.toNat = false then T.complete q h .noAuthority 0
    else (T.dropOn [Fin.ofNat 32 channel.toNat] (atOrAfter h) .cancelled).completeWith q h 0
      (T.countOn [Fin.ofNat 32 channel.toNat] (atOrAfter h)) := by
  unfold Part.cancelChannel
  dsimp only
  split
  · rfl
  · rename_i hc
    have hm : T.maskAllows q (Fin.ofNat 32 channel.toNat) = (T.queue q).mask.getLsbD channel.toNat := by
      rw [Part.maskAllows, Fin.val_ofNat, Nat.mod_eq_of_lt (by omega)]
    rw [hm]
    cases (T.queue q).mask.getLsbD channel.toNat <;> rfl

theorem cancelChannel_takes (h : Header) (channel : BitVec 8) {s : State} {q : Fin 8} (hr : s.part.ready q = true) :
    takes (.cancelChannel h channel) s ((s.part.taken q).cancelChannel q h channel) := by
  have hc := Part.ready_calm hr
  have hW := Part.ready_owes hr
  refine ready_takes (i := .cancelChannel h channel) rfl hr rfl ?_ ?_
  · rw [Part.cancelChannel_eq]
    split
    · exact (hc.complete hW _ _ _).fault
    · split
      · exact (hc.complete hW _ _ _).fault
      · exact (Part.calm_dropOn_completeWith hc hW _ _ h _).fault
  · refine (congrArg Engine.state ?_).trans (Part.ready_running hr)
    rw [Part.cancelChannel_eq]
    split
    · simp
    · split <;> simp

/-- A sum over the channels to which one channel alone contributes. -/
theorem sum_channels_single (f : Fin 32 → Nat) (c : Fin 32) (h : ∀ c', c' ≠ c → f c' = 0) :
    ((List.finRange 32).map f).sum = f c := by
  rw [← Fin.sum_univ_def]
  exact Finset.sum_eq_single c (fun c' _ hc => h c' hc) (by simp)

theorem Part.cancelled_cancelTag {T : Part} (hT : T.engine.state = .running) (q : Fin 8) (h : Header) (tag : BitVec 16) :
    T.Cancelled q h (fun _ x => x.origin == q && x.tag == tag) (T.cancelTag q h tag) := by
  rw [Part.cancelTag_eq]
  refine Part.cancelled_dropOn hT (fun c x => ?_) ?_ q h
  · simp [Part.cancelTagSelects]
  · rw [Part.countOn]
    rfl

theorem Part.cancelled_cancelChannel {T : Part} (hT : T.engine.state = .running) (q : Fin 8) (h : Header)
    {channel : BitVec 8} (hc : channel.toNat < 32) (hm : (T.queue q).mask.getLsbD channel.toNat = true) :
    T.Cancelled q h (fun c x => c.val == channel.toNat && decide (h.time.toNat ≤ x.effective))
      (T.cancelChannel q h channel) := by
  rw [Part.cancelChannel_eq, if_neg (by omega), if_neg (by simp [hm])]
  have hval : (Fin.ofNat 32 channel.toNat).val = channel.toNat := by rw [Fin.val_ofNat, Nat.mod_eq_of_lt hc]
  refine Part.cancelled_dropOn hT (fun c x => ?_) ?_ q h
  · simp only [List.mem_singleton, Fin.ext_iff, hval]
    rfl
  · rw [sum_channels_single _ (Fin.ofNat 32 channel.toNat) fun c hne => ?_]
    · simp only [Part.countOn, List.map_singleton, List.sum_singleton, hval, beq_self_eq_true, Bool.true_and]
      rfl
    · have : (c.val == channel.toNat) = false := beq_eq_false_iff_ne.2 fun e => hne (Fin.ext (e.trans hval.symm))
      simp [this]

/-- Settles O28, by what dropping leaves of the timelines and by the last item of the write list. -/
theorem cancelRemovesTheSelected : Obligations.CancelRemovesTheSelected := by
  intro s q h hr
  have hT : (s.part.taken q).engine.state = .running := Part.ready_running hr
  refine ⟨fun tag => ⟨_, cancelTag_takes h tag hr, Part.cancelled_cancelTag hT q h tag⟩, fun channel => ?_⟩
  have ht := cancelChannel_takes h channel hr
  refine ⟨fun hc => ?_, fun hc => ⟨fun hm => ?_, fun hm => ⟨_, ht, Part.cancelled_cancelChannel hT q h hc hm⟩⟩⟩
  · rwa [Part.cancelChannel_eq, if_pos hc] at ht
  · rwa [Part.cancelChannel_eq, if_neg (by omega), if_pos hm] at ht

end Sys2Proof.Machine
end

section
/-!
The due-time event of one channel: a batch whose steps are all on one channel, and what the guard and the Scheduler do with it
(R20, R21, R33, R36).
-/

namespace Sys2Proof.Machine

/-! ### A batch of one part -/

/-- The part of a side in a batch of one request. -/
def soloPart (own : Side) (r : Request) (side : Side) : Option Request := if side = own then some r else none

/-- The guard's answer to a batch of one request, when it makes no report. -/
def soloResult (view : PairView) (own : Side) (a : Answer) : GuardResult :=
  { view := view, lower := if own = .lower then some a else none, upper := if own = .upper then some a else none,
    reports := [] }

theorem eq_iff_pair_side (c c' : Fin 32) : c' = c ↔ pairOf c' = pairOf c ∧ sideOf c' = sideOf c :=
  ⟨fun h => h ▸ ⟨rfl, rfl⟩, fun ⟨hp, hs⟩ => by rw [← channelOf_pairOf c', hp, hs, channelOf_pairOf]⟩

namespace PairView

variable {v : PairView}

theorem get_set (v : PairView) (side side' : Side) (ch : Channel) :
    (v.set side ch).get side' = if side' = side then ch else v.get side' := by
  cases side <;> cases side' <;> rfl

theorem set_pair (v : PairView) (side : Side) (ch : Channel) : (v.set side ch).pair = v.pair := by cases side <;> rfl

/-- R33: a step of a channel of a disabled pair is applied at once. -/
theorem batch_solo_disabled (h : v.pair.enabled = false) (t : Nat) (own : Side) (l : Level) :
    v.batch t (soloPart own { level := l, kind := .step } .lower) (soloPart own { level := l, kind := .step } .upper) =
      soloResult (v.set own { v.get own with level := l, waiting := none }) own .applied := by
  unfold batch
  rw [if_neg (by simp [h])]
  cases own <;> rfl

theorem settlePart_activeGoing {t : Nat} {side : Side} {q : Request}
    (h : classify v.pair (v.get side).level q.level = .activeGoing) :
    v.settlePart t side (some q) = (v, none, []) := by
  unfold settlePart
  dsimp only
  rw [h]

theorem judge_step_reports (v : PairView) (t : Nat) (own : Side) (l : Level) :
    (v.judge t own { level := l, kind := .step }).2.2 = [] := by
  unfold judge
  dsimp only
  split
  · rfl
  · split
    · rfl
    · split <;> rfl

/-- R36: an active-going step alone in its batch is judged. -/
theorem batch_solo_activeGoing (h : v.pair.enabled = true) (t : Nat) (own : Side) (l : Level)
    (hl : l = v.pair.polarity.activeLevel) (hne : l ≠ (v.get own).level) :
    v.batch t (soloPart own { level := l, kind := .step } .lower) (soloPart own { level := l, kind := .step } .upper) =
      soloResult ((v.wait own none).judge t own { level := l, kind := .step }).1 own
        ((v.wait own none).judge t own { level := l, kind := .step }).2.1 := by
  subst hl
  have hc : classify (v.wait own none).pair ((v.wait own none).get own).level v.pair.polarity.activeLevel = .activeGoing := by
    cases own <;> simp_all [classify, Pair.isActive, wait, PairView.set, PairView.get]
  have hj := judge_step_reports (v.wait own none) t own v.pair.polarity.activeLevel
  have hs : (v.wait own none).settlePart t own (some { level := v.pair.polarity.activeLevel, kind := .step }) =
      (v.wait own none, none, []) := settlePart_activeGoing hc
  unfold batch
  rw [if_pos h]
  unfold guardEnabled
  cases own
  · simp only [soloPart, supersede, Option.isSome_some, Option.isSome_none, reduceCtorEq, if_true, if_false]
    rw [hs]
    simp [settlePart, bothActiveGoing, judgePart, soloResult, hj]
  · simp only [soloPart, supersede, Option.isSome_some, Option.isSome_none, reduceCtorEq, if_true, if_false]
    simp only [settlePart] at hs ⊢
    rw [hs]
    simp [bothActiveGoing, judgePart, soloResult, hj]

end PairView

namespace Part

variable {p : Part}

/-- The request of a batch's steps on channel c (R20). -/
def soloRequest (p : Part) (c : Fin 32) (t : Nat) : Request :=
  { level := finalLevel (p.channel c).level (batchAt t (p.timeline c)), kind := .step }

/-- What the guard answers to a batch whose steps are on channel c alone. -/
def soloBatch (p : Part) (c : Fin 32) (t : Nat) : GuardResult :=
  (p.pairView (pairOf c)).batch p.now (soloPart (sideOf c) (p.soloRequest c t) .lower)
    (soloPart (sideOf c) (p.soloRequest c t) .upper)

theorem sideOf_eq {c : Fin 32} {side : Side} (h : sideOf c = side) : channelOf (pairOf c) side = c := by
  rw [← h]
  exact channelOf_pairOf c

/-- The steps of a batch at t are on channel c alone: some are there, and none is the partner's. -/
structure SoloAt (p : Part) (c : Fin 32) (t : Nat) : Prop where
  own : p.partOf c t (sideOf c) = batchAt t (p.timeline c)
  some : batchAt t (p.timeline c) ≠ []
  other : p.partOf c t (sideOf c).other = []

theorem SoloAt.request (h : p.SoloAt c t) (side : Side) :
    p.stepRequest (channelOf (pairOf c) side) (p.partOf c t side) = soloPart (sideOf c) (p.soloRequest c t) side := by
  by_cases hs : side = sideOf c
  · subst hs
    rw [h.own, stepRequest, if_neg (by simpa using h.some), sideOf_eq rfl]
    simp [soloPart, soloRequest]
  · have : side = (sideOf c).other := by
      cases side <;> cases hc : sideOf c <;> simp_all [Side.other]
    rw [this, h.other, soloPart, if_neg (this ▸ hs)]
    rfl

/-- The part after the guard's view of the pair of c has been put back and the Scheduler has acted on c's steps. -/
def soloTaken (p : Part) (c : Fin 32) (t : Nat) (view : PairView) (a : Answer) : Part :=
  (p.setPairView (pairOf c) view).actOn c t (some a)

/-- A batch whose steps are on one channel: the guard's answer is acted on, and a contention is raised if it is BLOCKED. -/
theorem takeBatch_solo {c : Fin 32} {t : Nat} (h : p.SoloAt c t) {view : PairView} {a : Answer}
    (hr : p.soloBatch c t = soloResult view (sideOf c) a) (w : Bool) :
    ∃ (lo up : Option Request) (r : GuardResult) (n : Nat), p.takeBatch c t w =
      if a = .blocked then (p.soloTaken c t view a).contention (pairOf c) lo up r n w else p.soloTaken c t view a := by
  refine ⟨soloPart (sideOf c) (p.soloRequest c t) .lower, soloPart (sideOf c) (p.soloRequest c t) .upper, p.soloBatch c t,
    blockedCount (p.soloBatch c t) (p.partOf c t .lower) (p.partOf c t .upper), ?_⟩
  unfold takeBatch batch
  dsimp only
  rw [h.request .lower, h.request .upper]
  rw [show (p.pairView (pairOf c)).batch p.now (soloPart (sideOf c) (p.soloRequest c t) .lower)
    (soloPart (sideOf c) (p.soloRequest c t) .upper) = p.soloBatch c t from rfl, hr]
  cases hs : sideOf c with
  | lower =>
    simp only [soloResult, if_true, reduceCtorEq, if_false, or_false, Option.some.injEq, sideOf_eq hs]
    split <;> rfl
  | upper =>
    simp only [soloResult, if_true, reduceCtorEq, if_false, false_or, Option.some.injEq, sideOf_eq hs]
    split <;> rfl

@[simp] theorem actOn_output (p : Part) (c : Fin 32) (t : Nat) (a : Option Answer) : (p.actOn c t a).output = p.output := by
  unfold actOn
  split <;> simp
@[simp] theorem actOn_domains (p : Part) (c : Fin 32) (t : Nat) (a : Option Answer) :
    (p.actOn c t a).domains = p.domains := by
  unfold actOn
  split <;> simp

theorem soloTaken_channel (p : Part) (c : Fin 32) (t : Nat) (view : PairView) (a : Answer) (c' : Fin 32) :
    (p.soloTaken c t view a).channel c' = if pairOf c' = pairOf c then view.get (sideOf c') else p.channel c' := by
  rw [← channel_setPairView p (pairOf c) view c', channel, soloTaken, actOn_output]
  rfl

theorem soloTaken_pair (p : Part) (c : Fin 32) (t : Nat) (view : PairView) (a : Answer) (k : Fin 16) :
    (p.soloTaken c t view a).pair k = if k = pairOf c then view.pair else p.pair k := by
  rw [← pair_setPairView p (pairOf c) k view, pair, soloTaken, actOn_output]
  rfl

@[simp] theorem soloTaken_domains (p : Part) (c : Fin 32) (t : Nat) (view : PairView) (a : Answer) :
    (p.soloTaken c t view a).domains = p.domains := by rw [soloTaken, actOn_domains, setPairView_domains]

theorem timeline_actOn_applied (p : Part) (c c' : Fin 32) (t : Nat) : (p.actOn c t (some .applied)).timeline c' =
    if c' = c then applyBatch t (p.timeline c) else p.timeline c' :=
  (timeline_resolveAll _ _ _ _).trans (timeline_setTimeline ..)

theorem timeline_actOn_deferred (p : Part) (c c' : Fin 32) (t d : Nat) :
    (p.actOn c t (some (.deferred d))).timeline c' = if c' = c then deferBatch d (p.timeline c) else p.timeline c' :=
  timeline_setTimeline ..

theorem timeline_actOn_blocked (p : Part) (c c' : Fin 32) (t : Nat) : (p.actOn c t (some .blocked)).timeline c' =
    if c' = c then (p.timeline c).filter (fun s => s.effective != t) else p.timeline c' :=
  timeline_dropWhere ..

theorem get_pairView (p : Part) (k : Fin 16) (side : Side) : (p.pairView k).get side = p.channel (channelOf k side) := by
  cases side <;> rfl

theorem channel_checkHalted (p : Part) (c : Fin 32) : p.checkHalted.channel c = p.channel c := by
  rw [channel, checkHalted_output]
  rfl
theorem timeline_checkHalted (p : Part) (c : Fin 32) : p.checkHalted.timeline c = p.timeline c := by
  rw [timeline, checkHalted_timelines]
  rfl
theorem domain_checkHalted (p : Part) (d : Fin 8) : p.checkHalted.domain d = p.domain d := by
  rw [domain, checkHalted_domains]
  rfl

theorem batchAt_ne_nil_of_head {tl : List Step} {t : Nat} (h : tl.head?.map Step.effective = some t) :
    batchAt t tl ≠ [] := by
  cases tl with
  | nil => cases h
  | cons x tl =>
    obtain rfl := Option.some.inj h
    simp [batchAt]

theorem headTime_scheduled {c : Fin 32} (h : (p.channel c).force = none) :
    p.headTime c = (p.timeline c).head?.map Step.effective := by
  rw [headTime, if_pos (by rw [h]; rfl)]

/-- R20: the batch of a SCHEDULED channel of a disabled pair is that channel's alone. -/
theorem soloAt_disabled {c : Fin 32} {t : Nat} (he : (p.pair (pairOf c)).enabled = false)
    (hf : (p.channel c).force = none) (ht : (p.timeline c).head?.map Step.effective = some t) : p.SoloAt c t where
  own := by
    simp only [partOf, sideOf_eq rfl]
    rw [if_pos (by simp [hf])]
  some := batchAt_ne_nil_of_head ht
  other := by
    have : channelOf (pairOf c) (sideOf c).other ≠ c := fun e => by
      have := congrArg sideOf e
      rw [sideOf_channelOf] at this
      cases hs : sideOf c <;> rw [hs] at this <;> cases this
    simp only [partOf]
    rw [if_neg (by simp [he, this])]

end Part

/-- A due-time event whose batch is due, in a part whose next posting write the windows allow. -/
theorem dueTimeEvent_takes {s : State} {c : Fin 32} {t : Nat} (haw : s.part.awake = true)
    (hb : s.part.batchTime c = some t) (ht : t ≤ s.part.clock.time) (w : Bool) :
    takes (.dueTimeEvent { channel := c, tripWaits := w }) s (s.part.takeBatch c t w).checkHalted := by
  obtain ⟨hr, hw⟩ := (awake_iff _).1 haw
  have hc := (Part.calm_of_writesAllowed hw).moves (Part.moves_takeBatch s.part c t w)
  have hd : Part.dueTimeEvent c w s.part = some (s.part.takeBatch c t w) := by
    rw [Part.dueTimeEvent, hb]
    exact if_pos ht
  have hx : exec (.dueTimeEvent { channel := c, tripWaits := w }) s = event (Part.dueTimeEvent c w) s := rfl
  unfold takes
  rw [hx, event_some hr hd, Part.settle, Part.checkFault, hc.fault]

/-! ### The timeline after an APPLIED answer -/

theorem batchAt_restAt (t t' : Nat) (tl : List Step) : batchAt t' (restAt t tl) = if t' = t then [] else batchAt t' tl := by
  unfold batchAt restAt
  rw [List.filter_filter]
  split
  · simp_all
  · exact List.filter_congr fun x _ => by grind

theorem batchAt_applyBatch {tl : List Step} (h : Ordered tl) (t t' : Nat) : batchAt t' (applyBatch t tl) =
    (if t' = t then [] else batchAt t' tl) ++ batchAt t' ((batchAt t tl).filterMap Step.afterApplied) := by
  rw [applyBatch, batchAt_placeSteps _ (show Ordered (restAt t tl) from h.filter _), batchAt_restAt]

theorem satAdd_eq_min (a b : Nat) : satAdd a b = min (a + b) maxTime := by
  unfold satAdd
  split <;> omega

/-- R22: what an APPLIED answer makes of a step of the batch at t. -/
theorem afterApplied_eq {x : Step} {t : Nat} (h : x.effective = t) : x.afterApplied =
    match x.body with
    | .single _ => none
    | .repeating r =>
      match r.next with
      | .a => some { x with body := .repeating { r with next := .b }, effective := min (t + r.afterA) maxTime }
      | .b =>
        if r.cycles ≤ 1 then none
        else some { x with
          body := .repeating { r with next := .a, cycles := r.cycles - 1 }
          effective := min (t + r.afterB) maxTime } := by
  subst h
  unfold Step.afterApplied Repeat.countTransition
  cases x.body with
  | single a => rfl
  | repeating r =>
    cases hn : r.next with
    | a => simp [hn, satAdd_eq_min]
    | b =>
      by_cases hc : r.cycles ≤ 1
      · simp [hn, hc, show r.cycles - 1 = 0 by omega]
      · simp [hn, hc, show r.cycles - 1 ≠ 0 by omega, satAdd_eq_min]

/-- Settles O29: the batch is one channel's, it is applied, and applying places its repeating steps anew. -/
theorem dueStepsAreExecuted : Obligations.DueStepsAreExecuted := by
  intro s c t haw ho he hf hhead htime part next w
  have hb : s.part.batchTime c = some t := by
    rw [Part.batchTime, if_neg (by simp [he]), Part.headTime_scheduled hf, hhead]
  have hsolo := Part.soloAt_disabled he hf hhead
  obtain ⟨lo, up, r, n, htake⟩ := Part.takeBatch_solo hsolo
    (PairView.batch_solo_disabled (v := s.part.pairView (pairOf c)) he s.part.now (sideOf c) _) w
  rw [if_neg (by simp)] at htake
  have ht := dueTimeEvent_takes haw hb htime w
  have hm := Part.moves_takeBatch (W := fun _ => True) s.part c t w
  refine ⟨_, ht, fun c' => ?_, fun t' => ?_, fun c' hc => ?_, ?_, ?_, ?_, ?_, ?_⟩
  · rw [Part.channel_checkHalted, htake, Part.soloTaken_channel]
    by_cases hk : pairOf c' = pairOf c
    · rw [if_pos hk, PairView.get_set, Part.get_pairView, Part.get_pairView, channelOf_pairOf, ← hk, channelOf_pairOf]
      simp only [eq_iff_pair_side c c', hk, true_and]
      rfl
    · rw [if_neg hk, if_neg fun h => hk (congrArg pairOf h)]
  · rw [Part.timeline_checkHalted, htake, Part.soloTaken, Part.timeline_actOn_applied, if_pos rfl]
    refine (batchAt_applyBatch (ho c) t t').trans ?_
    refine congrArg (fun l => _ ++ batchAt t' l) (List.filterMap_congr fun x hx => ?_)
    exact afterApplied_eq (by simpa using (List.mem_filter.1 hx).2)
  · rw [Part.timeline_checkHalted, htake, Part.soloTaken, Part.timeline_actOn_applied, if_neg hc]
    rfl
  · refine Vector.ext fun i hi => ?_
    have := Part.soloTaken_pair s.part c t ((s.part.pairView (pairOf c)).set (sideOf c)
      { (s.part.pairView (pairOf c)).get (sideOf c) with level := (s.part.soloRequest c t).level, waiting := none })
      .applied ⟨i, hi⟩
    rw [Part.checkHalted_output, htake]
    refine Eq.trans this ?_
    split
    · rename_i hk
      rw [PairView.set_pair]
      exact congrArg s.part.pair hk.symm
    · rfl
  · rw [Part.checkHalted_clock, hm.clock]
  · rw [Part.checkHalted_domains, htake, Part.soloTaken_domains]
  · rw [Part.checkHalted_inputs, hm.inputs]
  · rw [Part.checkHalted_command, hm.command]

end Sys2Proof.Machine
end

section
/-!
What offers and trips make of the domain records (R69 to R71, R76, R78): the drive to the safe levels changes the progress of a
domain and takes it from TRIPPING to TRIPPED, and all else of a record is changed by the offer itself.
-/

namespace Sys2Proof.Machine

/-- `b` is `a`, perhaps further on in its drive to the safe levels (R76). -/
structure Domain.Onward (a b : Domain) : Prop where
  rest : b = { a with progress := b.progress, state := b.state }
  state : b.state = a.state ∨ (a.state = .tripping ∧ b.state = .tripped)

namespace Domain

variable {a b c : Domain}

theorem Onward.refl (a : Domain) : a.Onward a := ⟨rfl, .inl rfl⟩

theorem Onward.trans (h : a.Onward b) (h' : b.Onward c) : a.Onward c := by
  refine ⟨?_, ?_⟩
  · rw [h'.rest, h.rest]
  · rcases h.state with e | ⟨e1, e2⟩ <;> rcases h'.state with e' | ⟨e1', e2'⟩
    · exact .inl (e'.trans e)
    · exact .inr ⟨e ▸ e1', e2'⟩
    · exact .inr ⟨e1, e'.trans e2⟩
    · rw [e2] at e1'
      cases e1'

theorem Onward.members (h : a.Onward b) : b.members = a.members := by rw [h.rest]
theorem Onward.sources (h : a.Onward b) : b.sources = a.sources := by rw [h.rest]
theorem Onward.sequence (h : a.Onward b) : b.sequence = a.sequence := by rw [h.rest]
theorem Onward.causes (h : a.Onward b) : b.causes = a.causes := by rw [h.rest]
theorem Onward.tripTime (h : a.Onward b) : b.tripTime = a.tripTime := by rw [h.rest]

/-- An onward step commutes with adding to the latched causes. -/
theorem Onward.addCauses (h : a.Onward b) (m : BitVec 21) :
    ({ a with causes := a.causes ||| m } : Domain).Onward { b with causes := b.causes ||| m } := by
  refine ⟨?_, h.state⟩
  conv_lhs => rw [h.rest]

theorem Onward.selects (h : a.Onward b) (cause : Cause) : b.selects cause = a.selects cause := by
  cases cause <;> simp only [Domain.selects, h.sources]

end Domain

namespace Part

variable {p p' p'' : Part}

/-- Every domain record is as it was, perhaps further on in its drive to the safe levels. -/
def DomainsOnward (p p' : Part) : Prop := ∀ d, (p.domain d).Onward (p'.domain d)

theorem DomainsOnward.refl (p : Part) : DomainsOnward p p := fun _ => .refl _

theorem DomainsOnward.trans (h : DomainsOnward p p') (h' : DomainsOnward p' p'') : DomainsOnward p p'' :=
  fun d => (h d).trans (h' d)

theorem domainsOnward_of_eq (h : p'.domains = p.domains) : DomainsOnward p p' := fun d => by
  rw [show p'.domain d = p.domain d from congrArg (fun v => v[d]) h]
  exact .refl _

theorem domainsOnward_foldl {β : Type} (f : Part → β → Part) (h : ∀ p b, DomainsOnward p (f p b)) (l : List β)
    (p : Part) : DomainsOnward p (l.foldl f p) := by
  induction l generalizing p with
  | nil => exact .refl p
  | cons b l ih => exact (h p b).trans (ih _)

theorem domainsOnward_modDomain (p : Part) (d : Fin 8) {f : Domain → Domain}
    (hf : f (p.domain d) = { p.domain d with progress := (f (p.domain d)).progress }) :
    DomainsOnward p (p.modDomain d f) := fun e => by
  rw [domain_modDomain]
  split
  · rename_i he
    subst he
    exact ⟨by rw [hf], .inl (by rw [hf])⟩
  · exact .refl _

theorem domainsOnward_noteReports (p : Part) (k : Fin 16) (l : List SafeReport) :
    DomainsOnward p (p.noteReports k l) := by
  unfold noteReports
  refine domainsOnward_foldl _ (fun p r => ?_) l p
  exact domainsOnward_modDomain p _ rfl

theorem domainsOnward_checkSafe (p : Part) (d : Fin 8) : DomainsOnward p (p.checkSafe d) := fun e => by
  unfold checkSafe
  dsimp only
  split
  · rename_i h
    have hd : ((p.modDomain d fun x => { x with state := .tripped }).notify
        (.domainSafe d (p.domain d).causes (p.domain d).tripTime)).domain e =
        (p.modDomain d fun x => { x with state := .tripped }).domain e := by
      rw [domain, notify_domains]
      rfl
    rw [hd, domain_modDomain]
    split
    · rename_i he
      subst he
      exact ⟨rfl, .inr ⟨h.1, rfl⟩⟩
    · exact .refl _
  · exact .refl _

theorem domainsOnward_checkReported (p : Part) (l : List SafeReport) : DomainsOnward p (p.checkReported l) := by
  unfold checkReported
  exact domainsOnward_foldl _ (fun p r => domainsOnward_checkSafe p r.domain) l p

theorem domainsOnward_batch (p : Part) (k : Fin 16) (lo up : Option Request) : DomainsOnward p (p.batch k lo up).1 :=
  .trans (domainsOnward_of_eq (by simp)) (domainsOnward_noteReports _ k _)

theorem domainsOnward_requestBatch (p : Part) (k : Fin 16) (lo up : Option Request) :
    DomainsOnward p (p.requestBatch k lo up) :=
  (domainsOnward_batch p k lo up).trans (domainsOnward_checkReported _ _)

theorem domainsOnward_requestSafe (p : Part) (l : List (Fin 32)) (kind : WaitKind) :
    DomainsOnward p (p.requestSafe l kind) :=
  domainsOnward_foldl _ (fun p k => domainsOnward_requestBatch p k _ _) _ p

theorem domainsOnward_immediateBatch (p : Part) (d : Fin 8) (k : Fin 16) (l : List (Fin 32)) :
    DomainsOnward p (p.immediateBatch d k l) := by
  have mark (p : Part) (c : Fin 32) (b : Bool) : DomainsOnward p (if b then p.modDomain d fun x => x.markWaiting c none else p) := by
    split
    · exact domainsOnward_modDomain p d rfl
    · exact .refl p
  unfold immediateBatch
  dsimp only
  split
  · exact ((domainsOnward_batch p k _ _).trans (mark _ _ _)).trans (mark _ _ _)
  · exact .refl p

theorem domainsOnward_driveImmediate (p : Part) (d : Fin 8) (l : List (Fin 32)) :
    DomainsOnward p (p.driveImmediate d l) :=
  domainsOnward_foldl _ (fun p k => domainsOnward_immediateBatch p d k l) _ p

theorem domainsOnward_makeEntry (p : Part) (d : Fin 8) (n : Nat) (c : Fin 32) :
    DomainsOnward p (p.makeEntry d n c) := by
  unfold makeEntry
  dsimp only
  split <;> exact (domainsOnward_batch p _ _ _).trans (domainsOnward_modDomain _ d rfl)

theorem domainsOnward_makeZeroEntries (p : Part) (d : Fin 8) (l : List SequenceEntry) :
    DomainsOnward p (p.makeZeroEntries d l) :=
  domainsOnward_foldl _ (fun p x => by split <;> [exact domainsOnward_makeEntry p d _ _; exact .refl p]) _ p

theorem domainsOnward_takeOver (p : Part) : DomainsOnward p p.takeOver := by
  refine .trans (domainsOnward_of_eq ?_) (domainsOnward_requestSafe _ _ _)
  exact foldl_keeps _ _ (fun p c => by simp) _ p

/-- R71: of the domain records a trip enters that of its domain into TRIPPING, and then the drive goes on. -/
theorem domainsOnward_trip (p : Part) (d : Fin 8) (cause : Cause) :
    DomainsOnward (p.modDomain d fun x => x.trip cause p.now) (p.trip d cause) := by
  unfold trip
  dsimp only
  refine .trans ?_ (domainsOnward_checkSafe _ d)
  refine .trans ?_ (domainsOnward_of_eq (notify_domains ..))
  refine .trans ?_ (domainsOnward_makeZeroEntries _ d _)
  refine .trans ?_ (domainsOnward_driveImmediate _ d _)
  split <;> exact domainsOnward_of_eq (by simp)

/-- A latched cause is in the cause set already. -/
theorem causes_or_mask {x : Domain} {cause : Cause} (h : x.hasCause cause = true) : x.causes ||| cause.mask = x.causes := by
  refine BitVec.eq_of_getLsbD_eq fun i hi => ?_
  unfold Domain.hasCause at h
  rw [BitVec.getLsbD_or, Cause.mask, BitVec.getLsbD_shiftLeft, BitVec.getLsbD_one]
  by_cases hc : i = cause.number.val
  · rw [hc, h]
    rfl
  · have : ¬(cause.number.val ≤ i ∧ i - cause.number.val = 0) := by omega
    by_cases hlt : i < cause.number.val
    · simp [hlt]
    · simp [show i - cause.number.val ≠ 0 by omega]

/-- R70: adding a cause changes the latched causes of the domain alone. -/
theorem domain_addCause (p : Part) (d e : Fin 8) (cause : Cause) : (p.addCause d cause).domain e =
    if e = d then { p.domain d with causes := (p.domain d).causes ||| cause.mask } else p.domain e := by
  unfold addCause
  dsimp only
  split
  · rename_i h
    rw [causes_or_mask h]
    split
    · rename_i he
      rw [he]
    · rfl
  · rw [show ∀ q : Part, ∀ b, (q.notify b).domain e = q.domain e from
      fun q b => congrArg (fun v => v[e]) (notify_domains q b), domain_modDomain]

end Part

/-! ### Offers -/

/-- What an offer of a selected source makes of a domain record at a time value, but for its drive (R70, R71, R78). -/
def Domain.offered (x : Domain) (cause : Cause) (now : Nat) : Domain :=
  match x.state with
  | .disarmed => x
  | .armed =>
    { x.trip cause now with
      causes := if x.contentionWaits && x.selects .contention then cause.mask ||| Cause.contention.mask else cause.mask }
  | .tripping | .tripped =>
    if cause = .halt ∨ cause = .engineFault then x else { x with causes := x.causes ||| cause.mask }

theorem Domain.offered_disarmed {x : Domain} (h : x.state = .disarmed) (cause : Cause) (now : Nat) :
    x.offered cause now = x := by
  rw [Domain.offered, h]

theorem Domain.offered_armed {x : Domain} (h : x.state = .armed) (cause : Cause) (now : Nat) : x.offered cause now =
    { x.trip cause now with
      causes := if x.contentionWaits && x.selects .contention then cause.mask ||| Cause.contention.mask else cause.mask } := by
  cases x
  cases h
  rfl

theorem Domain.offered_tripped {x : Domain} (h : x.state = .tripping ∨ x.state = .tripped) (cause : Cause) (now : Nat) :
    x.offered cause now =
      if cause = .halt ∨ cause = .engineFault then x else { x with causes := x.causes ||| cause.mask } := by
  cases x
  rcases h with h | h <;> cases h <;> rfl

/-- What an offer of a source makes of a domain record. -/
def Domain.afterOffer (x : Domain) (cause : Cause) (now : Nat) : Domain :=
  if x.selects cause then x.offered cause now else x

/-- An offer finds the same in a domain that has gone on. -/
theorem Domain.Onward.afterOffer {a b : Domain} (h : a.Onward b) (cause : Cause) (now : Nat) :
    (a.afterOffer cause now).Onward (b.afterOffer cause now) := by
  have tripped (ha : a.state = .tripping ∨ a.state = .tripped) (hb : b.state = .tripping ∨ b.state = .tripped) :
      (a.offered cause now).Onward (b.offered cause now) := by
    rw [Domain.offered_tripped ha, Domain.offered_tripped hb]
    split
    · exact h
    · exact h.addCauses _
  unfold Domain.afterOffer
  rw [h.selects]
  split
  · rcases h.state with e | ⟨ea, eb⟩
    · cases ha : a.state with
      | disarmed =>
        rw [Domain.offered_disarmed ha, Domain.offered_disarmed (e.trans ha)]
        exact h
      | armed =>
        rw [Domain.offered_armed ha, Domain.offered_armed (e.trans ha)]
        have hb := h.rest
        generalize b.progress = progress, b.state = state at hb
        subst hb
        exact ⟨rfl, .inl rfl⟩
      | tripping => exact tripped (.inl ha) (.inl (e.trans ha))
      | tripped => exact tripped (.inr ha) (.inr (e.trans ha))
    · exact tripped (.inl ea) (.inr eb)
  · exact h

namespace Part

variable {p : Part}

/-- The trip of an ARMED domain, in the domain records: the pulse that waited adds its cause (R78). -/
theorem onward_tripArmed (p : Part) (d e : Fin 8) (cause : Cause) :
    (if e = d then
      { (p.domain d).trip cause p.now with
        causes := if (p.domain d).contentionWaits && (p.domain d).selects .contention
          then cause.mask ||| Cause.contention.mask else cause.mask }
     else p.domain e).Onward ((p.tripArmed d cause).domain e) := by
  have ht := domainsOnward_trip p d cause e
  rw [domain_modDomain] at ht
  unfold tripArmed
  dsimp only
  by_cases hw : ((p.domain d).contentionWaits && (p.domain d).selects .contention) = true
  · simp only [if_pos hw]
    rw [domain_addCause]
    by_cases he : e = d
    · subst he
      rw [if_pos rfl] at ht
      rw [if_pos rfl, if_pos rfl]
      exact ht.addCauses _
    · rw [if_neg he] at ht
      rwa [if_neg he, if_neg he]
  · simp only [if_neg hw]
    exact ht

theorem offer_unselected {cause : Cause} {d : Fin 8} (h : ¬(p.domain d).selects cause = true) : p.offer cause d = p := by
  unfold offer
  exact if_neg h

theorem offer_disarmed {cause : Cause} {d : Fin 8} (hs : (p.domain d).selects cause = true)
    (h : (p.domain d).state = .disarmed) : p.offer cause d = p := by
  unfold offer
  dsimp only
  rw [if_pos hs, h]

theorem offer_armed {cause : Cause} {d : Fin 8} (hs : (p.domain d).selects cause = true)
    (h : (p.domain d).state = .armed) : p.offer cause d = p.tripArmed d cause := by
  unfold offer
  dsimp only
  rw [if_pos hs, h]

theorem offer_tripped {cause : Cause} {d : Fin 8} (hs : (p.domain d).selects cause = true)
    (h : (p.domain d).state = .tripping ∨ (p.domain d).state = .tripped) :
    p.offer cause d = if cause = .halt ∨ cause = .engineFault then p else p.addCause d cause := by
  unfold offer
  dsimp only
  rw [if_pos hs]
  rcases h with h | h <;> rw [h]

/-- The offer of a source to domain d, in the domain records. -/
theorem onward_offer (p : Part) (cause : Cause) (d e : Fin 8) :
    (if e = d then (p.domain d).afterOffer cause p.now else p.domain e).Onward ((p.offer cause d).domain e) := by
  have same : (if e = d then p.domain d else p.domain e).Onward (p.domain e) := by
    by_cases he : e = d
    · rw [if_pos he, he]
      exact .refl _
    · rw [if_neg he]
      exact .refl _
  by_cases hs : (p.domain d).selects cause = true
  · unfold Domain.afterOffer
    rw [if_pos hs]
    have tripped (hx : (p.domain d).state = .tripping ∨ (p.domain d).state = .tripped) :
        (if e = d then (p.domain d).offered cause p.now else p.domain e).Onward ((p.offer cause d).domain e) := by
      rw [Domain.offered_tripped hx, offer_tripped hs hx]
      by_cases hc : cause = .halt ∨ cause = .engineFault
      · rw [if_pos hc, if_pos hc]
        exact same
      · rw [if_neg hc, if_neg hc, domain_addCause]
        exact .refl _
    cases hx : (p.domain d).state with
    | disarmed =>
      rw [Domain.offered_disarmed hx, offer_disarmed hs hx]
      exact same
    | armed =>
      rw [Domain.offered_armed hx, offer_armed hs hx]
      exact onward_tripArmed p d e cause
    | tripping => exact tripped (.inl hx)
    | tripped => exact tripped (.inr hx)
  · rw [offer_unselected hs, Domain.afterOffer, if_neg hs]
    exact same

/-- An event's offers, in the domain records: each domain of the list is offered the source once. -/
theorem onward_offers (cause : Cause) (l : List (Fin 8)) (hl : l.Nodup) (p : Part) (e : Fin 8) :
    (if e ∈ l then (p.domain e).afterOffer cause p.now else p.domain e).Onward
      ((l.foldl (fun p d => p.offer cause d) p).domain e) := by
  induction l generalizing p with
  | nil => exact .refl _
  | cons d l ih =>
    obtain ⟨hd, hl⟩ := List.nodup_cons.1 hl
    have hnow : (p.offer cause d).now = p.now := congrArg Clock.time (offer_clock p cause d)
    have hfirst := onward_offer p cause d e
    have hrest := ih hl (p.offer cause d)
    rw [hnow] at hrest
    rw [List.foldl_cons]
    by_cases he : e = d
    · subst he
      rw [if_neg hd] at hrest
      rw [if_pos rfl] at hfirst
      rw [if_pos List.mem_cons_self]
      exact hfirst.trans hrest
    · rw [if_neg he] at hfirst
      by_cases hm : e ∈ l
      · rw [if_pos hm] at hrest
        rw [if_pos (List.mem_cons_of_mem _ hm)]
        exact (hfirst.afterOffer cause p.now).trans hrest
      · rw [if_neg hm] at hrest
        rw [if_neg (by simp [he, hm])]
        exact hfirst.trans hrest

/-- A domain that an offer does not concern is left by it (R69). -/
theorem afterOffer_unconcerned {d : Fin 8} {cause : Cause} (h : d ∉ p.concerned cause) (now : Nat) :
    (p.domain d).afterOffer cause now = p.domain d := by
  unfold Domain.afterOffer
  split
  · rename_i hs
    have : (p.domain d).state = .disarmed := by simpa [concerned, hs] using h
    rw [Domain.offered, this]
  · rfl

/-- R69, R70: what the offer of a source to every domain makes of each record. -/
theorem onward_offerAll (p : Part) (cause : Cause) (d : Fin 8) :
    ((p.domain d).afterOffer cause p.now).Onward ((p.offerAll cause).domain d) := by
  have hn : (inOfferOrder p.freeIndex (p.concerned cause)).Nodup :=
    nodup_inOfferOrder _ ((List.nodup_finRange 8).filter _)
  have h := onward_offers cause _ hn { p with freeIndex := p.freeIndex + 1 } d
  unfold offerAll
  by_cases hm : d ∈ p.concerned cause
  · rw [if_pos ((mem_inOfferOrder ..).2 hm)] at h
    exact h
  · rw [if_neg fun hc => hm ((mem_inOfferOrder ..).1 hc)] at h
    rw [afterOffer_unconcerned hm]
    exact h

/-- The statement's reading of an offer to one domain: `x` before it, `y` after. -/
def OfferRead (cause : Cause) (now : Nat) (x y : Domain) : Prop :=
  (y.state = x.state ∨ (y.state = .tripped ∧ x.state = .tripping) ∨
    (x.selects cause = true ∧ x.state = .armed ∧ (y.state = .tripping ∨ y.state = .tripped))) ∧
  (x.selects cause = true → x.state = .armed →
    (y.state = .tripping ∨ y.state = .tripped) ∧
      y.causes = 1#21 <<< cause.number.val |||
        (if x.contentionWaits = true ∧ x.selects .contention = true then 1#21 <<< 17 else 0) ∧
      y.tripTime = now) ∧
  (x.state ≠ .armed ∨ x.selects cause = false →
    y.tripTime = x.tripTime ∧
      y.causes = if x.selects cause = true ∧ x.state ≠ .disarmed ∧ cause ≠ .halt ∧ cause ≠ .engineFault
        then x.causes ||| 1#21 <<< cause.number.val else x.causes)

theorem offerRead_of_unarmed {cause : Cause} {now : Nat} {x y : Domain} (hx : ¬(x.selects cause = true ∧ x.state = .armed))
    (state : y.state = x.state ∨ (x.state = .tripping ∧ y.state = .tripped)) (tripTime : y.tripTime = x.tripTime)
    (causes : y.causes = if x.selects cause = true ∧ x.state ≠ .disarmed ∧ cause ≠ .halt ∧ cause ≠ .engineFault
      then x.causes ||| 1#21 <<< cause.number.val else x.causes) : OfferRead cause now x y :=
  ⟨state.imp id fun ⟨a, b⟩ => .inl ⟨b, a⟩, fun hs ha => absurd ⟨hs, ha⟩ hx, fun _ => ⟨tripTime, causes⟩⟩

theorem offerRead_of_onward {cause : Cause} {now : Nat} {x y : Domain} (h : (x.afterOffer cause now).Onward y) :
    OfferRead cause now x y := by
  obtain ⟨hstate, hcauses, htrip⟩ := And.intro h.state (And.intro h.causes h.tripTime)
  unfold Domain.afterOffer at hstate hcauses htrip
  by_cases hsel : x.selects cause = true
  · rw [if_pos hsel] at hstate hcauses htrip
    have tripped (hx : x.state = .tripping ∨ x.state = .tripped) : OfferRead cause now x y := by
      have hd : x.state ≠ .armed ∧ x.state ≠ .disarmed := by rcases hx with h | h <;> rw [h] <;> simp
      rw [Domain.offered_tripped hx] at hstate hcauses htrip
      by_cases hc : cause = .halt ∨ cause = .engineFault
      · rw [if_pos hc] at hstate hcauses htrip
        refine offerRead_of_unarmed (fun h => hd.1 h.2) hstate htrip ?_
        rwa [if_neg]
        rintro ⟨-, -, h1, h2⟩
        exact hc.elim h1 h2
      · rw [if_neg hc] at hstate hcauses htrip
        refine offerRead_of_unarmed (fun h => hd.1 h.2) hstate htrip ?_
        rwa [if_pos ⟨hsel, hd.2, fun h => hc (.inl h), fun h => hc (.inr h)⟩]
    cases hx : x.state with
    | disarmed =>
      rw [Domain.offered_disarmed hx] at hstate hcauses htrip
      refine offerRead_of_unarmed (fun h => ?_) hstate htrip ?_
      · rw [hx] at h
        cases h.2
      · rwa [if_neg fun h => h.2.1 hx]
    | armed =>
      rw [Domain.offered_armed hx] at hstate hcauses htrip
      have hs : y.state = .tripping ∨ y.state = .tripped := hstate.imp id And.right
      refine ⟨.inr (.inr ⟨hsel, hx, hs⟩), fun _ _ => ⟨hs, ?_, htrip⟩, fun h => ?_⟩
      · rw [hcauses]
        cases x.contentionWaits <;> cases x.selects .contention <;> simp [Cause.mask, Cause.number]
      · simp [hsel, hx] at h
    | tripping => exact tripped (.inl hx)
    | tripped => exact tripped (.inr hx)
  · rw [if_neg hsel] at hstate hcauses htrip
    refine offerRead_of_unarmed (fun h => hsel h.1) hstate htrip ?_
    rwa [if_neg fun h => hsel h.1]

/-- R69, R70, R78: what an event's offers do to the domains, whatever the drives to safe levels do after them. -/
theorem offered_of_onward {p p' : Part} {cause : Cause}
    (h : ∀ d, ((p.domain d).afterOffer cause p.now).Onward (p'.domain d)) : p.offered cause p' :=
  fun d => offerRead_of_onward (h d)

end Part

end Sys2Proof.Machine
end

section
/-!
An active-going batch of one channel of an enabled pair (R36, R37, R41): blocked with its contention, deferred or applied.
-/

namespace Sys2Proof.Machine

/-! ### What a contention reaches -/

namespace Part

variable {p : Part}

theorem mem_memberList (x : Domain) (c : Fin 32) : c ∈ x.memberList ↔ x.members.getLsbD c.val = true := by
  simp [Domain.memberList]

/-- R72, R73: a trip discards the steps of the members, or holds them; other timelines it leaves. -/
theorem timeline_trip (p : Part) (d : Fin 8) (cause : Cause) (c : Fin 32) : (p.trip d cause).timeline c = p.timeline c ∨
    ((p.domain d).members.getLsbD c.val = true ∧ (p.trip d cause).timeline c = []) := by
  have h : (p.trip d cause).timeline c =
      if (p.domain d).disposition = .discard ∧ c ∈ (p.domain d).memberList then [] else p.timeline c := by
    have hf : ((p.modDomain d fun x => x.trip cause p.now).forceMembers (p.domain d).memberList).timeline c =
        p.timeline c := congrArg (fun v => v[c]) (forceMembers_timelines _ _)
    unfold trip
    dsimp only
    rw [timeline, checkSafe_timelines, notify_timelines, makeZeroEntries_timelines, driveImmediate_timelines]
    by_cases hd : (p.domain d).disposition = .discard
    · simp only [hd, true_and]
      refine (timeline_dropOn _ _ _ _ c).trans ?_
      rw [hf]
      simp
    · simp only [hd, false_and, if_false]
      exact hf
  rw [h]
  split
  · rename_i hc
    exact .inr ⟨(mem_memberList _ _).1 hc.2, rfl⟩
  · exact .inl rfl

/-- An offer discards no steps but those of the members of its domain. -/
theorem timeline_offer (p : Part) (cause : Cause) (d : Fin 8) (c : Fin 32) :
    (p.offer cause d).timeline c = p.timeline c ∨
      ((p.domain d).members.getLsbD c.val = true ∧ (p.offer cause d).timeline c = []) := by
  have hadd (q : Part) (cause : Cause) : (q.addCause d cause).timeline c = q.timeline c :=
    congrArg (fun v => v[c]) (addCause_timelines q d cause)
  by_cases hs : (p.domain d).selects cause = true
  · cases hx : (p.domain d).state with
    | disarmed => exact .inl (by rw [offer_disarmed hs hx])
    | armed =>
      rw [offer_armed hs hx, tripArmed]
      split
      · rw [hadd]
        exact timeline_trip p d cause c
      · exact timeline_trip p d cause c
    | tripping | tripped =>
      refine .inl ?_
      rw [offer_tripped hs (by simp [hx])]
      split
      · rfl
      · exact hadd p cause
  · exact .inl (by rw [offer_unselected hs])

theorem timeline_pulse (p : Part) (w : Bool) (d : Fin 8) (c : Fin 32) :
    (p.pulse w d).timeline c = p.timeline c ∨
      ((p.domain d).members.getLsbD c.val = true ∧ (p.pulse w d).timeline c = []) := by
  unfold pulse
  split
  · exact .inl rfl
  · exact timeline_offer p .contention d c

theorem members_of_domainOf {c : Fin 32} {d : Fin 8} (h : p.domainOf c = some d) :
    (p.domain d).members.getLsbD c.val = true := by
  simpa using List.find?_some h

/-- R66: where no channel is a member of two domains, a member's domain is the one it is a member of. -/
theorem domainOf_member (ha : p.domainsApart) {c : Fin 32} {d : Fin 8} (h : (p.domain d).members.getLsbD c.val = true) :
    p.domainOf c = some d := by
  cases he : p.domainOf c with
  | none =>
    have := List.find?_eq_none.1 he d (List.mem_finRange d)
    exact absurd h this
  | some e =>
    have hm := members_of_domainOf he
    by_contra hne
    have hz := ha.1 e d fun h => hne (congrArg some h)
    have := congrArg (fun m => m.getLsbD c.val) hz
    rw [BitVec.getLsbD_and, hm, h] at this
    simp at this

/-- R41: a contention hands over its notice, and its pulse reaches the domain of both channels of the pair, if there is one. -/
theorem contention_cases (p : Part) (k : Fin 16) (lo up : Option Request) (r : GuardResult) (n : Nat) (w : Bool) :
    ∃ b, (p.contention k lo up r n w = p.notify b ∧
        ∀ d, ¬(p.domainOf (channelOf k .lower) = some d ∧ p.domainOf (channelOf k .upper) = some d)) ∨
      ∃ d, p.contention k lo up r n w = (p.notify b).pulse w d ∧ p.domainOf (channelOf k .lower) = some d ∧
        p.domainOf (channelOf k .upper) = some d := by
  have hdom (b : NoticeBody) (c : Fin 32) : (p.notify b).domainOf c = p.domainOf c := by
    unfold domainOf domain
    rw [notify_domains]
  unfold contention
  dsimp only
  generalize NoticeBody.pairContention k _ _ _ _ _ _ _ = b
  refine ⟨b, ?_⟩
  rw [hdom, hdom]
  cases hl : p.domainOf (channelOf k .lower) with
  | none => exact .inl ⟨rfl, by simp⟩
  | some d =>
    by_cases hu : p.domainOf (channelOf k .upper) = some d
    · exact .inr ⟨d, if_pos hu, rfl, hu⟩
    · refine .inl ⟨if_neg hu, fun e he => hu ?_⟩
      rw [he.2, he.1]

theorem domain_notify (p : Part) (b : NoticeBody) (d : Fin 8) : (p.notify b).domain d = p.domain d :=
  congrArg (fun v => v[d]) (notify_domains p b)
theorem timeline_notify (p : Part) (b : NoticeBody) (c : Fin 32) : (p.notify b).timeline c = p.timeline c :=
  congrArg (fun v => v[c]) (notify_timelines p b)
theorem channel_notify (p : Part) (b : NoticeBody) (c : Fin 32) : (p.notify b).channel c = p.channel c :=
  congrArg (fun o : Output => o.channels[c]) (notify_output p b)

/-- A contention discards no steps but those of a domain of both channels of the pair. -/
theorem timeline_contention (p : Part) (k : Fin 16) (lo up : Option Request) (r : GuardResult) (n : Nat) (w : Bool)
    (c : Fin 32) : (p.contention k lo up r n w).timeline c = p.timeline c ∨
      ((p.contention k lo up r n w).timeline c = [] ∧ ∃ d, p.domainOf (channelOf k .lower) = some d ∧
        p.domainOf (channelOf k .upper) = some d ∧ (p.domain d).members.getLsbD c.val = true) := by
  obtain ⟨b, ⟨h, -⟩ | ⟨d, h, hl, hu⟩⟩ := contention_cases p k lo up r n w
  · rw [h, timeline_notify]
    exact .inl rfl
  · rw [h]
    refine (timeline_pulse (p.notify b) w d c).imp (fun h => h.trans (timeline_notify p b c)) fun ⟨hm, hn⟩ => ?_
    rw [domain_notify] at hm
    exact ⟨hn, d, hl, hu, hm⟩

/-- A contention that no domain of the pair's channels selects hands over its notice and does no more. -/
theorem contention_unselected {k : Fin 16} {c : Fin 32} (hc : pairOf c = k)
    (h : ∀ d : Fin 8, (p.domain d).members.getLsbD c.val = true → (p.domain d).sources.getLsbD 17 = false)
    (lo up : Option Request) (r : GuardResult) (n : Nat) : ∃ b, p.contention k lo up r n false = p.notify b := by
  obtain ⟨b, ⟨hn, -⟩ | ⟨d, hn, hl, hu⟩⟩ := contention_cases p k lo up r n false
  · exact ⟨b, hn⟩
  · refine ⟨b, hn.trans (offer_unselected ?_)⟩
    have hm : (p.domain d).members.getLsbD c.val = true := by
      refine members_of_domainOf ?_
      rw [← channelOf_pairOf c, hc]
      cases sideOf c
      · exact hl
      · exact hu
    rw [domain_notify]
    simp only [Domain.selects, h d hm, Bool.false_eq_true, not_false_eq_true]

/-- R41, R69: the pulse of a contention reaches the domain of the pair's channels. -/
theorem contention_member {k : Fin 16} {c : Fin 32} {d : Fin 8} (hc : pairOf c = k) (he : (p.pair k).enabled = true)
    (ha : p.domainsApart) (hm : (p.domain d).members.getLsbD c.val = true) (lo up : Option Request) (r : GuardResult)
    (n : Nat) (w : Bool) : ∃ b, p.contention k lo up r n w = (p.notify b).pulse w d := by
  have hpair := ha.2 k d he
  have hboth : ∀ side, p.domainOf (channelOf k side) = some d := fun side => by
    refine domainOf_member ha ?_
    rw [← channelOf_pairOf c, hc] at hm
    cases hs : sideOf c <;> rw [hs] at hm <;> cases side
    · exact hm
    · exact hpair ▸ hm
    · exact hpair.symm ▸ hm
    · exact hm
  obtain ⟨b, ⟨-, hn⟩ | ⟨e, hn, hl, -⟩⟩ := contention_cases p k lo up r n w
  · exact absurd ⟨hboth .lower, hboth .upper⟩ (hn d)
  · rw [hboth .lower] at hl
    obtain rfl := Option.some.inj hl
    exact ⟨b, hn⟩

end Part

/-! ### The guard's answer -/

namespace PairView

/-- R36, conditions 1 and 2: what blocks an active-going step of a channel. -/
def Blocks (v : PairView) (t : Nat) (own : Side) : Prop :=
  (v.get own.other).level = v.pair.polarity.activeLevel ∨
    (v.pair.deadTimeEnd ≤ t ∧ ∃ w, (v.get own.other).waiting = some w ∧ w.level = v.pair.polarity.activeLevel)

variable {v : PairView}

theorem isActive_iff (h : v.pair.enabled = true) (l : Level) : v.pair.isActive l = true ↔ l = v.pair.polarity.activeLevel := by
  simp [Pair.isActive, h]

theorem waitingActive_iff (h : v.pair.enabled = true) (side : Side) : v.waitingActive side = true ↔
    ∃ w, (v.get side).waiting = some w ∧ w.level = v.pair.polarity.activeLevel := by
  unfold waitingActive
  cases (v.get side).waiting with
  | none => simp
  | some w => simp [isActive_iff h]

/-- R36: what an active-going step of an enabled pair meets. -/
theorem judge_step (h : v.pair.enabled = true) (t : Nat) (own : Side) (l : Level) :
    (v.Blocks t own → v.judge t own { level := l, kind := .step } = (v, .blocked, [])) ∧
    (¬v.Blocks t own → t < v.pair.deadTimeEnd →
      v.judge t own { level := l, kind := .step } = (v, .deferred v.pair.deadTimeEnd, [])) ∧
    (¬v.Blocks t own → v.pair.deadTimeEnd ≤ t →
      v.judge t own { level := l, kind := .step } = (v.apply own l, .applied, [])) := by
  have hb : v.Blocks t own ↔ v.pair.isActive (v.get own.other).level = true ∨
      (v.pair.deadTimeEnd ≤ t ∧ v.waitingActive own.other = true) := by
    rw [Blocks, isActive_iff h, waitingActive_iff h]
  rw [hb]
  unfold judge
  dsimp only
  cases ha : v.pair.isActive (v.get own.other).level <;> cases hw : v.waitingActive own.other <;>
    by_cases ht : v.pair.deadTimeEnd ≤ t <;> simp [ht, Nat.not_lt.2, Nat.lt_of_not_le]

end PairView

end Sys2Proof.Machine
end

section
/-!
The due-time event of an enabled pair whose batch is on one channel and asks for the active level (R36, R37, R41).
-/

namespace Sys2Proof.Machine

namespace Part

variable {p : Part}

theorem timeline_soloTaken_other (p : Part) {c c' : Fin 32} (hne : c' ≠ c) (t : Nat) (view : PairView) (a : Answer) :
    (p.soloTaken c t view a).timeline c' = p.timeline c' := by
  unfold soloTaken
  cases a with
  | applied => exact (timeline_actOn_applied ..).trans (if_neg hne)
  | blocked => exact (timeline_actOn_blocked ..).trans (if_neg hne)
  | deferred d => exact (timeline_actOn_deferred ..).trans (if_neg hne)
  | waits => rfl

theorem domain_soloTaken (p : Part) (c : Fin 32) (t : Nat) (view : PairView) (a : Answer) (d : Fin 8) :
    (p.soloTaken c t view a).domain d = p.domain d :=
  congrArg (fun v => v[d]) (soloTaken_domains p c t view a)

theorem domainOf_soloTaken (p : Part) (c : Fin 32) (t : Nat) (view : PairView) (a : Answer) (c' : Fin 32) :
    (p.soloTaken c t view a).domainOf c' = p.domainOf c' := by
  unfold domainOf
  simp only [domain_soloTaken]

/-- The time of the partner's head is later, or does not count. -/
theorem headTime_later {c : Fin 32} {t : Nat} (h : (p.channel c).force ≠ none ∨ ∀ x ∈ p.timeline c, t < x.effective) :
    ∀ t', p.headTime c = some t' → t < t' := by
  intro t' ht'
  unfold headTime at ht'
  split at ht'
  · rename_i hf
    rcases h with h | h
    · exact absurd (Option.isNone_iff_eq_none.1 hf) h
    · cases htl : p.timeline c with
      | nil => simp [htl] at ht'
      | cons x tl =>
        rw [htl] at ht' h
        obtain rfl := Option.some.inj ht'
        exact h x List.mem_cons_self
  · cases ht'

theorem earlier_left {a : Nat} {b : Option Nat} (h : ∀ t', b = some t' → a < t') : earlier (some a) b = some a := by
  cases b with
  | none => rfl
  | some b => simp [earlier, Nat.min_eq_left (h b rfl).le]

theorem earlier_right {a : Nat} {b : Option Nat} (h : ∀ t', b = some t' → a < t') : earlier b (some a) = some a := by
  cases b with
  | none => rfl
  | some b => simp [earlier, Nat.min_eq_right (h b rfl).le]

/-- A batch at t of an enabled pair whose steps are on c alone: the partner's head comes later. -/
structure Alone (p : Part) (c : Fin 32) (t : Nat) : Prop where
  enabled : (p.pair (pairOf c)).enabled = true
  scheduled : (p.channel c).force = none
  head : (p.timeline c).head?.map Step.effective = some t
  partner : (p.channel (partnerOf c)).force ≠ none ∨ ∀ x ∈ p.timeline (partnerOf c), t < x.effective

theorem Alone.batchTime {c : Fin 32} {t : Nat} (h : p.Alone c t) : p.batchTime c = some t := by
  have hown : p.headTime c = some t := (headTime_scheduled h.scheduled).trans h.head
  have hlater := headTime_later h.partner
  rw [Part.batchTime, if_pos h.enabled]
  unfold partnerOf at hlater
  cases hs : sideOf c <;> rw [hs] at hlater <;> rw [sideOf_eq hs, hown]
  · exact earlier_left hlater
  · exact earlier_right hlater

theorem Alone.soloAt {c : Fin 32} {t : Nat} (h : p.Alone c t) : p.SoloAt c t where
  own := by
    simp only [partOf, sideOf_eq rfl]
    rw [if_pos (by simp [h.scheduled])]
  some := batchAt_ne_nil_of_head h.head
  other := by
    have hp := h.partner
    unfold partnerOf at hp
    simp only [partOf]
    split
    · rename_i hc
      simp only [Bool.and_eq_true, Option.isNone_iff_eq_none] at hc
      refine List.filter_eq_nil_iff.2 fun x hx => ?_
      have := hp.resolve_left (fun hf => hf hc.1) x hx
      simp only [beq_iff_eq]
      omega
    · rfl

/-- What an active-going batch of c alone leaves, by the guard's judgement of it. -/
theorem takeBatch_activeGoing {c : Fin 32} {t : Nat} (h : p.Alone c t)
    (hl : (p.soloRequest c t).level = (p.pair (pairOf c)).polarity.activeLevel)
    (hne : (p.channel c).level ≠ (p.pair (pairOf c)).polarity.activeLevel) {view : PairView} {a : Answer}
    (hj : ((p.pairView (pairOf c)).wait (sideOf c) none).judge p.now (sideOf c) (p.soloRequest c t) = (view, a, []))
    (w : Bool) :
    ∃ (lo up : Option Request) (r : GuardResult) (n : Nat), p.takeBatch c t w =
      if a = .blocked then (p.soloTaken c t view a).contention (pairOf c) lo up r n w else p.soloTaken c t view a := by
  refine takeBatch_solo h.soloAt ?_ w
  have hg : ((p.pairView (pairOf c)).get (sideOf c)).level = (p.channel c).level := by
    rw [get_pairView, channelOf_pairOf]
  refine (PairView.batch_solo_activeGoing (v := p.pairView (pairOf c)) h.enabled p.now (sideOf c) _ hl ?_).trans ?_
  · rw [hg, hl]
    exact hne.symm
  · rw [show ({ level := (p.soloRequest c t).level, kind := .step } : Request) = p.soloRequest c t from rfl, hj]

/-- The pair of c as the guard judges an active-going step of c: its waiting request superseded (R39). -/
def judgedView (p : Part) (c : Fin 32) : PairView := (p.pairView (pairOf c)).wait (sideOf c) none

theorem judgedView_pair (p : Part) (c : Fin 32) : (p.judgedView c).pair = p.pair (pairOf c) := by
  unfold judgedView
  cases sideOf c <;> rfl

theorem judgedView_own (p : Part) (c : Fin 32) : (p.judgedView c).get (sideOf c) = { p.channel c with waiting := none } := by
  unfold judgedView PairView.wait
  rw [PairView.get_set, if_pos rfl, get_pairView, channelOf_pairOf]

theorem judgedView_partner (p : Part) (c : Fin 32) : (p.judgedView c).get (sideOf c).other = p.channel (partnerOf c) := by
  unfold judgedView PairView.wait partnerOf
  rw [PairView.get_set, if_neg (by cases sideOf c <;> simp [Side.other]), get_pairView]

/-- R36, R41: a contention after the drop of a blocked part. -/
def blockedTaken (p : Part) (c : Fin 32) (t : Nat) : Part := p.soloTaken c t (p.judgedView c) .blocked

theorem timeline_blockedTaken (p : Part) (c : Fin 32) (t : Nat) :
    (p.blockedTaken c t).timeline c = (p.timeline c).filter fun x => x.effective != t :=
  (timeline_actOn_blocked _ c c t).trans (if_pos rfl)

theorem level_soloTaken_judged (p : Part) (c : Fin 32) (t : Nat) (a : Answer) :
    ((p.soloTaken c t (p.judgedView c) a).channel c).level = (p.channel c).level := by
  rw [soloTaken_channel, if_pos rfl, judgedView_own]

theorem pair_blockedTaken (p : Part) (c : Fin 32) (t : Nat) (k : Fin 16) : (p.blockedTaken c t).pair k = p.pair k := by
  rw [blockedTaken, soloTaken_pair, judgedView_pair]
  split
  · rename_i hk
    rw [hk]
  · rfl

theorem domain_blockedTaken (p : Part) (c : Fin 32) (t : Nat) (d : Fin 8) :
    (p.blockedTaken c t).domain d = p.domain d := domain_soloTaken ..

theorem domainsApart_blockedTaken {c : Fin 32} {t : Nat} (ha : p.domainsApart) : (p.blockedTaken c t).domainsApart := by
  obtain ⟨h1, h2⟩ := ha
  refine ⟨fun d e hde => ?_, fun k d hk => ?_⟩
  · rw [domain_blockedTaken, domain_blockedTaken]
    exact h1 d e hde
  · rw [domain_blockedTaken]
    rw [pair_blockedTaken] at hk
    exact h2 k d hk

/-- R41: the contention of a blocked step trips the domain of the pair's channels, if it is ARMED and selects CONTENTION. -/
theorem contention_trips {c : Fin 32} {t : Nat} {d : Fin 8} (ha : p.domainsApart)
    (he : (p.pair (pairOf c)).enabled = true) (hm : (p.domain d).members.getLsbD c.val = true)
    (harmed : (p.domain d).state = .armed) (hs : (p.domain d).sources.getLsbD 17 = true) (lo up : Option Request)
    (r : GuardResult) (n : Nat) :
    let after := ((p.blockedTaken c t).contention (pairOf c) lo up r n false).domain d
    (after.state = .tripping ∨ after.state = .tripped) ∧ after.causes = 1#21 <<< 17 ∧ after.tripTime = p.now := by
  obtain ⟨b, hb⟩ := contention_member (p := p.blockedTaken c t) (c := c) (d := d) rfl (by rw [pair_blockedTaken]; exact he)
    (domainsApart_blockedTaken ha) (by rw [domain_blockedTaken]; exact hm) lo up r n false
  have hrec : ((p.blockedTaken c t).notify b).domain d = p.domain d := by rw [domain_notify, domain_blockedTaken]
  have hnow : ((p.blockedTaken c t).notify b).now = p.now := by
    have hm := moves_actOn (W := fun _ => True) (p.setPairView (pairOf c) (p.judgedView c)) c t (some .blocked)
    rw [now, notify_clock, blockedTaken, soloTaken, hm.clock]
    rfl
  have hsel : (p.domain d).selects .contention = true := hs
  have ho := onward_offer ((p.blockedTaken c t).notify b) .contention d d
  rw [if_pos rfl, hrec, hnow] at ho
  obtain ⟨-, hread, -⟩ := offerRead_of_onward ho
  obtain ⟨hstate, hcauses, htime⟩ := hread hsel harmed
  rw [hb]
  refine ⟨hstate, hcauses.trans ?_, htime⟩
  split <;> rfl

/-- R78: a pulse that finds a trip of the same time value yet to be taken waits for it. -/
theorem contention_waits {c : Fin 32} {t : Nat} {d : Fin 8} (ha : p.domainsApart)
    (he : (p.pair (pairOf c)).enabled = true) (hm : (p.domain d).members.getLsbD c.val = true)
    (harmed : (p.domain d).state = .armed) (lo up : Option Request) (r : GuardResult) (n : Nat) :
    ∃ b, (p.blockedTaken c t).contention (pairOf c) lo up r n true =
      ((p.blockedTaken c t).notify b).modDomain d fun x => { x with contentionWaits := true } := by
  obtain ⟨b, hb⟩ := contention_member (p := p.blockedTaken c t) (c := c) (d := d) rfl (by rw [pair_blockedTaken]; exact he)
    (domainsApart_blockedTaken ha) (by rw [domain_blockedTaken]; exact hm) lo up r n true
  refine ⟨b, hb.trans ?_⟩
  unfold pulse
  rw [domain_notify, domain_blockedTaken, harmed]
  rfl

/-- A contention discards no steps but those of the domains of c. -/
theorem timeline_contention_other {c c' : Fin 32} {t : Nat} (hne : c' ≠ c)
    (hd : ∀ d : Fin 8, (p.domain d).members.getLsbD c.val = true → (p.domain d).members.getLsbD c'.val = false)
    (lo up : Option Request) (r : GuardResult) (n : Nat) (w : Bool) :
    ((p.blockedTaken c t).contention (pairOf c) lo up r n w).timeline c' = p.timeline c' := by
  rcases timeline_contention (p.blockedTaken c t) (pairOf c) lo up r n w c' with h | ⟨-, d, hl, hu, hm⟩
  · exact h.trans (timeline_soloTaken_other p hne t _ _)
  · rw [blockedTaken, domainOf_soloTaken] at hl hu
    rw [domain_blockedTaken, hd d] at hm
    · cases hm
    · refine members_of_domainOf ?_
      rw [← channelOf_pairOf c]
      cases sideOf c
      · exact hl
      · exact hu

end Part

/-- Settles O30: the guard's judgement of the step, and what the Scheduler and the contention do after it. -/
theorem activeGoingStepMeetsTheGuard : Obligations.ActiveGoingStepMeetsTheGuard := by
  intro s c t haw k pair partner part he hf hhead htime hpartner hl hne blocked w
  have halone : s.part.Alone c t := ⟨he, hf, hhead, hpartner⟩
  have htakes := dueTimeEvent_takes haw halone.batchTime htime w
  have hm := Part.moves_takeBatch (W := fun _ => True) s.part c t w
  have hjudge := PairView.judge_step (v := s.part.judgedView c) (by rw [Part.judgedView_pair]; exact he) s.part.now
    (sideOf c) (s.part.soloRequest c t).level
  have hblocks : (s.part.judgedView c).Blocks s.part.now (sideOf c) ↔ blocked := by
    rw [PairView.Blocks, Part.judgedView_partner, Part.judgedView_pair]
    rfl
  obtain ⟨hjb, hjd, hja⟩ := hjudge
  rw [hblocks] at hjb hjd hja
  have htaken {view : PairView} {a : Answer} (hj : (s.part.judgedView c).judge s.part.now (sideOf c)
      { level := (s.part.soloRequest c t).level, kind := .step } = (view, a, [])) :=
    Part.takeBatch_activeGoing halone hl hne hj w
  refine ⟨_, htakes, fun hb => ?_, fun hb ht => ?_, fun hb ht => ?_, fun c' hc hd => ?_, ?_, ?_, ?_⟩
  · obtain ⟨lo, up, r, n, htake⟩ := htaken (hjb hb)
    rw [if_pos rfl, ← Part.blockedTaken] at htake
    refine ⟨?_, fun hw hsel => ?_, fun d ha hmem harmed => ⟨fun hw hsel => ?_, fun hw => ?_⟩⟩
    · rw [Part.timeline_checkHalted, htake]
      rcases Part.timeline_contention (s.part.blockedTaken c t) (pairOf c) lo up r n w c with h | ⟨h, -⟩
      · rw [h, Part.timeline_blockedTaken]
        intro x hx
        simpa using (List.mem_filter.1 hx).2
      · rw [h]
        exact fun x hx => absurd hx List.not_mem_nil
    · subst hw
      obtain ⟨b, hn⟩ := Part.contention_unselected (p := s.part.blockedTaken c t) (k := pairOf c) (c := c) rfl
        (fun d => by rw [Part.domain_blockedTaken]; exact hsel d) lo up r n
      rw [Part.timeline_checkHalted, Part.channel_checkHalted, Part.checkHalted_domains, htake, hn, Part.timeline_notify,
        Part.channel_notify, Part.notify_domains, Part.timeline_blockedTaken]
      exact ⟨rfl, Part.level_soloTaken_judged .., Part.soloTaken_domains ..⟩
    · subst hw
      rw [Part.domain_checkHalted, htake]
      exact Part.contention_trips ha he hmem harmed hsel lo up r n
    · subst hw
      obtain ⟨b, hn⟩ := Part.contention_waits (t := t) ha he hmem harmed lo up r n
      rw [Part.domain_checkHalted, Part.timeline_checkHalted, Part.channel_checkHalted, htake, hn]
      refine ⟨?_, ?_, ?_⟩
      · rw [Part.domain_modDomain, if_pos rfl, Part.domain_notify, Part.domain_blockedTaken]
      · exact (Part.timeline_notify _ b c).trans (Part.timeline_blockedTaken ..)
      · exact (congrArg Channel.level (Part.channel_notify _ b c)).trans (Part.level_soloTaken_judged ..)
  · obtain ⟨lo, up, r, n, htake⟩ := htaken (hjd hb (by rw [Part.judgedView_pair]; exact ht))
    rw [if_neg (by simp)] at htake
    rw [Part.timeline_checkHalted, Part.channel_checkHalted, Part.checkHalted_table, htake, Part.judgedView_pair]
    exact ⟨(Part.timeline_actOn_deferred ..).trans (if_pos rfl), Part.level_soloTaken_judged .., rfl⟩
  · obtain ⟨lo, up, r, n, htake⟩ := htaken (hja hb (by rw [Part.judgedView_pair]; exact ht))
    rw [if_neg (by simp)] at htake
    rw [Part.timeline_checkHalted, Part.channel_checkHalted, htake]
    refine ⟨?_, (Part.timeline_actOn_applied ..).trans (if_pos rfl)⟩
    rw [Part.soloTaken_channel, if_pos rfl, PairView.apply_get]
    exact hl
  · rw [Part.timeline_checkHalted]
    by_cases hb : blocked
    · obtain ⟨lo, up, r, n, htake⟩ := htaken (hjb hb)
      rw [htake, if_pos rfl]
      exact Part.timeline_contention_other hc hd lo up r n w
    · have hclear : ∃ view a, s.part.takeBatch c t w = s.part.soloTaken c t view a := by
        rcases Nat.lt_or_ge s.part.clock.time pair.deadTimeEnd with ht | ht
        · obtain ⟨lo, up, r, n, htake⟩ := htaken (hjd hb (by rw [Part.judgedView_pair]; exact ht))
          exact ⟨_, _, htake.trans (if_neg (by simp))⟩
        · obtain ⟨lo, up, r, n, htake⟩ := htaken (hja hb (by rw [Part.judgedView_pair]; exact ht))
          exact ⟨_, _, htake.trans (if_neg (by simp))⟩
      obtain ⟨view, a, htake⟩ := hclear
      rw [htake]
      exact Part.timeline_soloTaken_other s.part hc t view a
  · rw [Part.checkHalted_clock, hm.clock]
  · rw [Part.checkHalted_inputs, hm.inputs]
  · rw [Part.checkHalted_command, hm.command]

end Sys2Proof.Machine
end

section
/-!
What a batch of non-scheduled requests leaves of a pair (R30, R35 to R39): each requested channel at the level asked for, or waiting
for it, and the dead-time end moved where a channel leaves the active level.
-/

namespace Sys2Proof.Machine

namespace PairView

variable {v u : PairView} {t : Nat} {own side : Side} {q : Request}

/-! ### One side while the other's part is taken -/

theorem other_ne (side : Side) : side.other ≠ side := by cases side <;> simp [Side.other]

theorem get_wait (v : PairView) (side side' : Side) (w : Option Waiting) :
    (v.wait side w).get side' = if side' = side then { v.get side with waiting := w } else v.get side' := get_set ..

theorem get_apply (v : PairView) (side side' : Side) (l : Level) :
    (v.apply side l).get side' = if side' = side then { v.get side with level := l } else v.get side' := get_set ..

theorem get_withPair (v : PairView) (pair : Pair) (side : Side) : ({ v with pair := pair } : PairView).get side = v.get side := by
  cases side <;> rfl

/-- With nothing waiting on a side, applying its waiting request changes nothing. -/
theorem applyWaiting_none (h : (v.get side).waiting = none) : v.applyWaiting side = (v, []) := by
  rw [applyWaiting, h]

theorem get_applyWaiting_other (v : PairView) (side : Side) :
    (v.applyWaiting side).1.get side.other = v.get side.other := by
  unfold applyWaiting
  split
  · rfl
  · rw [get_wait, if_neg (other_ne side), get_apply, if_neg (other_ne side)]

theorem pair_applyWaiting (v : PairView) (side : Side) : (v.applyWaiting side).1.pair = v.pair := by
  unfold applyWaiting
  split
  · rfl
  · cases side <;> rfl

/-- R35: the side that goes inactive. -/
theorem get_goInactive_self (v : PairView) (t : Nat) (side : Side) (l : Level) :
    (v.goInactive t side l).1.get side = { v.get side with level := l } := by
  have ha : (v.apply side l).get side = { v.get side with level := l } := by rw [get_apply, if_pos rfl]
  unfold goInactive
  dsimp only
  split
  · split
    · have := get_applyWaiting_other { v.apply side l with pair := { v.pair with deadTimeEnd := satAdd t v.pair.deadTime } }
        side.other
      rw [other_other] at this
      rw [this, get_withPair, ha]
    · rw [get_withPair, ha]
  · exact ha

/-- R35, R40: the partner of a side that goes inactive, with no request of its own waiting. -/
theorem get_goInactive_other (h : (v.get side.other).waiting = none) (t : Nat) (l : Level) :
    (v.goInactive t side l).1.get side.other = v.get side.other := by
  have ha : (v.apply side l).get side.other = v.get side.other := by rw [get_apply, if_neg (other_ne side)]
  unfold goInactive
  dsimp only
  split
  · split
    · rw [applyWaiting_none (by rw [get_withPair, ha, h]), get_withPair, ha]
    · rw [get_withPair, ha]
  · exact ha

/-- R35: the dead-time end moves exactly if the channel was active. -/
theorem pair_goInactive (v : PairView) (t : Nat) (side : Side) (l : Level) : (v.goInactive t side l).1.pair =
    if v.pair.isActive (v.get side).level then { v.pair with deadTimeEnd := satAdd t v.pair.deadTime } else v.pair := by
  unfold goInactive
  dsimp only
  split
  · split
    · rw [pair_applyWaiting]
    · rfl
  · exact apply_pair ..

/-! ### The first half of the guard -/

theorem classify_cases (p : Pair) (present requested : Level) :
    (classify p present requested = .noChange ∧ requested = present) ∨
      (classify p present requested = .inactiveGoing ∧ requested ≠ present ∧ p.isActive requested = false) ∨
      (classify p present requested = .activeGoing ∧ requested ≠ present ∧ p.isActive requested = true) := by
  unfold classify
  by_cases h : requested = present
  · simp [h]
  · cases ha : p.isActive requested <;> simp [h]

theorem isActive_unique {p : Pair} {l l' : Level} (h : p.isActive l = true) (h' : p.isActive l' = true) : l = l' := by
  simp only [Pair.isActive, Bool.and_eq_true, beq_iff_eq] at h h'
  rw [h.2, h'.2]

theorem get_settlePart_other (h : (v.get side.other).waiting = none) (r : Option Request) :
    (v.settlePart t side r).1.get side.other = v.get side.other := by
  unfold settlePart
  split
  · rfl
  · split
    · rfl
    · exact get_goInactive_other h t _
    · rfl

/-- A part of a side is settled, at the level asked for, or it is active-going and left to be judged. -/
theorem settlePart_self (v : PairView) (t : Nat) (side : Side) (q : Request) :
    ((v.settlePart t side (some q)).2.1 = some .applied ∧
        (v.settlePart t side (some q)).1.get side = { v.get side with level := q.level }) ∨
      (v.pair.isActive q.level = true ∧ (v.settlePart t side (some q)).2.1 = none ∧
        (v.settlePart t side (some q)).1 = v) := by
  unfold settlePart
  dsimp only
  rcases classify_cases v.pair (v.get side).level q.level with ⟨hc, hl⟩ | ⟨hc, -⟩ | ⟨hc, -, ha⟩
  · rw [hc, hl]
    exact .inl ⟨rfl, rfl⟩
  · rw [hc]
    exact .inl ⟨rfl, get_goInactive_self ..⟩
  · rw [hc]
    exact .inr ⟨ha, rfl, rfl⟩

/-- R35: the first half of the guard moves the dead-time end exactly if the side leaves the active level. -/
theorem pair_settlePart (v : PairView) (t : Nat) (side : Side) (q : Request) :
    (v.settlePart t side (some q)).1.pair =
      if v.pair.isActive (v.get side).level = true ∧ q.level ≠ (v.get side).level
      then { v.pair with deadTimeEnd := satAdd t v.pair.deadTime } else v.pair := by
  unfold settlePart
  dsimp only
  rcases classify_cases v.pair (v.get side).level q.level with ⟨hc, hl⟩ | ⟨hc, hl, -⟩ | ⟨hc, hl, ha⟩
  · rw [hc, if_neg fun h => h.2 hl]
  · rw [hc]
    refine (pair_goInactive v t side q.level).trans ?_
    simp only [hl, ne_eq, not_false_eq_true, and_true]
  · rw [hc, if_neg fun h => h.2 (isActive_unique ha h.1)]

/-! ### The second half -/

theorem get_judge_other (v : PairView) (t : Nat) (side : Side) (q : Request) :
    (v.judge t side q).1.get side.other = v.get side.other := by
  have ha : (v.apply side q.level).get side.other = v.get side.other := by rw [get_apply, if_neg (other_ne side)]
  unfold judge
  dsimp only
  split
  · split
    · rfl
    · split
      · rfl
      · split
        · rfl
        · exact ha
  · split
    · rw [get_wait, if_neg (other_ne side)]
    · exact ha

theorem get_judgePart_other (v : PairView) (t : Nat) (side : Side) (r : Option Request) (a : Option Answer) :
    (v.judgePart t side r a).1.get side.other = v.get side.other := by
  unfold judgePart
  split
  · exact get_judge_other ..
  · rfl

theorem pair_judgePart (v : PairView) (t : Nat) (side : Side) (r : Option Request) (a : Option Answer) :
    (v.judgePart t side r a).1.pair = v.pair := by
  have hw : ∀ w, (v.wait side w).pair = v.pair := fun w => set_pair ..
  unfold judgePart judge
  dsimp only
  split
  · split
    · split
      · rfl
      · split
        · rfl
        · split
          · rfl
          · exact apply_pair ..
    · split
      · exact hw _
      · exact apply_pair ..
  · rfl

/-- What a non-scheduled request for a level leaves of its channel: the level, or a wait for the active level (R37, R38). -/
def Requested (pair : Pair) (kind : WaitKind) (l : Level) (before after : Channel) : Prop :=
  after.force = before.force ∧ after.safe = before.safe ∧
    ((after.level = l ∧ after.waiting = none) ∨
      (pair.isActive l = true ∧ after.level = before.level ∧ after.waiting = some { level := l, kind := kind }))

/-- R37, R38: a part that is judged is applied, or becomes the waiting request of its channel. -/
theorem requested_judge (v : PairView) (t : Nat) (side : Side) (kind : WaitKind) (l : Level)
    (hw : (v.get side).waiting = none) (ha : v.pair.isActive l = true) :
    Requested v.pair kind l (v.get side) ((v.judge t side { level := l, kind := .nonScheduled kind }).1.get side) := by
  unfold judge
  dsimp only
  split
  · rw [get_wait, if_pos rfl]
    exact ⟨rfl, rfl, .inr ⟨ha, rfl, rfl⟩⟩
  · rw [get_apply, if_pos rfl]
    exact ⟨rfl, rfl, .inl ⟨rfl, hw⟩⟩

/-! ### The batch -/

theorem get_supersede (v : PairView) (side side' : Side) (r : Option Request) : (v.supersede side r).get side' =
    if r.isSome = true ∧ side' = side then { v.get side with waiting := none } else v.get side' := by
  unfold supersede
  split
  · rename_i h
    rw [get_wait]
    simp [h]
  · rename_i h
    simp [h]

theorem pair_supersede (v : PairView) (side : Side) (r : Option Request) : (v.supersede side r).pair = v.pair := by
  unfold supersede
  split
  · exact set_pair ..
  · rfl

/-- The second half of the guard for a part that the first half settled, or left to be judged. -/
theorem requested_judgePart {b : Channel} {a : Option Answer} {kind : WaitKind} {l : Level} (hb : b.waiting = none)
    (h : (a = some .applied ∧ v.get own = { b with level := l }) ∨
      (v.pair.isActive l = true ∧ a = none ∧ v.get own = b)) :
    Requested v.pair kind l b ((v.judgePart t own (some { level := l, kind := .nonScheduled kind }) a).1.get own) := by
  rcases h with ⟨rfl, hg⟩ | ⟨ha, rfl, hg⟩
  · rw [show v.judgePart t own (some { level := l, kind := .nonScheduled kind }) (some .applied) =
      (v, some .applied, []) from rfl, hg]
    exact ⟨rfl, rfl, .inl ⟨rfl, hb⟩⟩
  · subst hg
    exact requested_judge v t own kind l hb ha

theorem requested_congr {p p' : Pair} {kind : WaitKind} {l : Level} {a b c : Channel} (h : Requested p kind l b c)
    (hp : p'.isActive l = p.isActive l) (hb : b = { a with waiting := none }) : Requested p' kind l a c := by
  subst hb
  rw [Requested, hp]
  exact h

/-- The two sides of a view after waiting requests are superseded, and after the first half of the guard. -/
def superseded (v : PairView) (lo up : Option Request) : PairView := (v.supersede .lower lo).supersede .upper up

def settledLower (v : PairView) (t : Nat) (lo up : Option Request) : PairView × Option Answer × List SafeReport :=
  (v.superseded lo up).settlePart t .lower lo

def settledUpper (v : PairView) (t : Nat) (lo up : Option Request) : PairView × Option Answer × List SafeReport :=
  (v.settledLower t lo up).1.settlePart t .upper up

def judgedLower (v : PairView) (t : Nat) (lo up : Option Request) : PairView × Option Answer × List SafeReport :=
  (v.settledUpper t lo up).1.judgePart t .lower lo (v.settledLower t lo up).2.1

def judgedUpper (v : PairView) (t : Nat) (lo up : Option Request) : PairView × Option Answer × List SafeReport :=
  (v.judgedLower t lo up).1.judgePart t .upper up (v.settledUpper t lo up).2.1

theorem guardEnabled_view (v : PairView) (t : Nat) (lo up : Option Request)
    (h : ∀ a a', bothActiveGoing lo up a a' = false) : (v.guardEnabled t lo up).view = (v.judgedUpper t lo up).1 := by
  unfold guardEnabled
  dsimp only
  rw [if_neg (by rw [h]; simp)]
  rfl

theorem bothActiveGoing_nonScheduled {lo up : Option Request} {r : Request} {kind : WaitKind}
    (hr : r.kind = .nonScheduled kind) (h : lo = some r ∨ up = some r) (a a' : Option Answer) :
    bothActiveGoing lo up a a' = false := by
  unfold bothActiveGoing
  split
  · rename_i l u
    rcases h with h | h <;> obtain rfl := Option.some.inj h <;> simp [hr]
  · rfl

theorem superseded_lower (v : PairView) (r : Request) (up : Option Request) :
    (v.superseded (some r) up).get .lower = { v.get .lower with waiting := none } := by
  rw [superseded, get_supersede, if_neg (by simp), get_supersede, if_pos ⟨rfl, rfl⟩]

theorem superseded_upper (v : PairView) (lo : Option Request) (r : Request) :
    (v.superseded lo (some r)).get .upper = { v.get .upper with waiting := none } := by
  rw [superseded, get_supersede, if_pos ⟨rfl, rfl⟩, get_supersede, if_neg (by simp)]

theorem superseded_pair (v : PairView) (lo up : Option Request) : (v.superseded lo up).pair = v.pair := by
  rw [superseded, pair_supersede, pair_supersede]

/-- A view whose pair differs in the dead-time end alone knows the same active level. -/
theorem isActive_settlePart (v : PairView) (t : Nat) (side : Side) (r : Option Request) (l : Level) :
    (v.settlePart t side r).1.pair.isActive l = v.pair.isActive l :=
  isActive_congr (sound_settlePart v t side r).enabled (sound_settlePart v t side r).polarity l

theorem requested_lower (v : PairView) (t : Nat) (kind : WaitKind) (l : Level) (up : Option Request) :
    Requested v.pair kind l (v.get .lower)
      ((v.judgedUpper t (some { level := l, kind := .nonScheduled kind }) up).1.get .lower) := by
  generalize hq : ({ level := l, kind := .nonScheduled kind } : Request) = q
  have hlevel : q.level = l := by rw [← hq]
  have h0 := superseded_lower v q up
  have hkeep : (v.settledUpper t (some q) up).1.get .lower = (v.settledLower t (some q) up).1.get .lower := by
    refine get_settlePart_other (side := .upper) ?_ up
    rcases settlePart_self (v.superseded (some q) up) t .lower q with ⟨-, h⟩ | ⟨-, -, h⟩
    · exact (congrArg Channel.waiting h).trans (by rw [h0])
    · exact (congrArg (fun u : PairView => (u.get .lower).waiting) h).trans (by rw [h0])
  have hactive : (v.settledUpper t (some q) up).1.pair.isActive l = v.pair.isActive l := by
    rw [settledUpper, isActive_settlePart, settledLower, isActive_settlePart, superseded_pair]
  rw [show (v.judgedUpper t (some q) up).1.get .lower = (v.judgedLower t (some q) up).1.get .lower from
    get_judgePart_other (side := .upper) ..]
  refine requested_congr (b := (v.superseded (some q) up).get .lower) (p := (v.settledUpper t (some q) up).1.pair) ?_
    hactive.symm h0
  unfold judgedLower
  subst hq
  refine requested_judgePart (by rw [h0]) ?_
  rw [hkeep, hactive]
  rcases settlePart_self (v.superseded _ up) t .lower { level := l, kind := .nonScheduled kind } with ⟨ha, h⟩ | ⟨hp, ha, h⟩
  · exact .inl ⟨ha, h⟩
  · rw [superseded_pair] at hp
    exact .inr ⟨hp, ha, congrArg (fun u : PairView => u.get .lower) h⟩

theorem requested_upper (v : PairView) (t : Nat) (kind : WaitKind) (l : Level) (lo : Option Request) :
    Requested v.pair kind l (v.get .upper)
      ((v.judgedUpper t lo (some { level := l, kind := .nonScheduled kind })).1.get .upper) := by
  generalize hq : ({ level := l, kind := .nonScheduled kind } : Request) = q
  have h0 := superseded_upper v lo q
  have hfirst : (v.settledLower t lo (some q)).1.get .upper = (v.superseded lo (some q)).get .upper :=
    get_settlePart_other (side := .lower) (by rw [show Side.lower.other = .upper from rfl, h0]) lo
  have hkeep : (v.judgedLower t lo (some q)).1.get .upper = (v.settledUpper t lo (some q)).1.get .upper :=
    get_judgePart_other (side := .lower) ..
  have hactive : (v.judgedLower t lo (some q)).1.pair.isActive l = v.pair.isActive l := by
    rw [judgedLower, pair_judgePart, settledUpper, isActive_settlePart, settledLower, isActive_settlePart, superseded_pair]
  refine requested_congr (b := (v.superseded lo (some q)).get .upper) (p := (v.judgedLower t lo (some q)).1.pair) ?_
    hactive.symm h0
  unfold judgedUpper
  subst hq
  refine requested_judgePart (by rw [h0]) ?_
  rw [hkeep, hactive]
  rcases settlePart_self (v.settledLower t lo _).1 t .upper { level := l, kind := .nonScheduled kind } with
    ⟨ha, h⟩ | ⟨hp, ha, h⟩
  · exact .inl ⟨ha, h.trans (by rw [hfirst])⟩
  · rw [settledLower, isActive_settlePart, superseded_pair] at hp
    exact .inr ⟨hp, ha, (congrArg (fun u : PairView => u.get .upper) h).trans hfirst⟩

/-- A channel with a non-scheduled request in a batch gets the level, or waits for it. -/
theorem requested_batch (v : PairView) (t : Nat) (kind : WaitKind) (l : Level) {lo up : Option Request} {side : Side}
    (h : (match side with | .lower => lo | .upper => up) = some { level := l, kind := .nonScheduled kind }) :
    Requested v.pair kind l (v.get side) ((v.batch t lo up).view.get side) := by
  unfold batch
  split
  · cases side with
    | lower =>
      dsimp only at h
      subst h
      rw [guardEnabled_view _ _ _ _ (bothActiveGoing_nonScheduled rfl (.inl rfl))]
      exact requested_lower v t kind l up
    | upper =>
      dsimp only at h
      subst h
      rw [guardEnabled_view _ _ _ _ (bothActiveGoing_nonScheduled rfl (.inr rfl))]
      exact requested_upper v t kind l lo
  · cases side with
    | lower =>
      dsimp only at h
      subst h
      cases up <;> exact ⟨rfl, rfl, .inl ⟨rfl, rfl⟩⟩
    | upper =>
      dsimp only at h
      subst h
      cases lo <;> exact ⟨rfl, rfl, .inl ⟨rfl, rfl⟩⟩

end PairView

end Sys2Proof.Machine
end

section
/-!
The requests for the safe levels of several channels, pair by pair (R43, R50), and the soft reset (R194).
-/

namespace Sys2Proof.Machine

namespace PairView

variable {v : PairView}

/-- Whether a request for level l takes the channel of a side out of the active level. -/
abbrev Leaves (v : PairView) (side : Side) (l : Level) : Prop :=
  v.pair.isActive (v.get side).level = true ∧ l ≠ (v.get side).level

/-- The guard's batch with a request for each channel, in the pair record. -/
theorem pair_guardEnabled_both (v : PairView) (t : Nat) (kind : WaitKind) (lo up : Level) :
    (v.guardEnabled t (some { level := lo, kind := .nonScheduled kind })
      (some { level := up, kind := .nonScheduled kind })).view.pair =
      if v.Leaves .lower lo ∨ v.Leaves .upper up then { v.pair with deadTimeEnd := satAdd t v.pair.deadTime } else v.pair := by
  rw [guardEnabled_view _ _ _ _ (bothActiveGoing_nonScheduled rfl (.inl rfl))]
  generalize hl : ({ level := lo, kind := .nonScheduled kind } : Request) = l
  generalize hu : ({ level := up, kind := .nonScheduled kind } : Request) = u
  have hlo : ((v.superseded (some l) (some u)).get .lower).level = (v.get .lower).level := by rw [superseded_lower]
  have hup : ((v.settledLower t (some l) (some u)).1.get .upper).level = (v.get .upper).level := by
    have h := get_settlePart_other (v := v.superseded (some l) (some u)) (t := t) (side := .lower)
      (by rw [show Side.lower.other = .upper from rfl, superseded_upper]) (some l)
    exact (congrArg Channel.level h).trans (by rw [show Side.lower.other = .upper from rfl, superseded_upper])
  have hp1 : (v.settledLower t (some l) (some u)).1.pair =
      if v.Leaves .lower lo then { v.pair with deadTimeEnd := satAdd t v.pair.deadTime } else v.pair := by
    rw [settledLower, pair_settlePart, hlo, superseded_pair, ← hl]
  have hactive : (v.settledLower t (some l) (some u)).1.pair.isActive (v.get .upper).level =
      v.pair.isActive (v.get .upper).level := by
    rw [settledLower, isActive_settlePart, superseded_pair]
  rw [judgedUpper, pair_judgePart, judgedLower, pair_judgePart, settledUpper, pair_settlePart, hup, hactive, hp1, ← hu]
  by_cases h1 : v.Leaves .lower lo
  · rw [if_pos h1]
    refine Eq.trans ?_ (if_pos (Or.inl h1)).symm
    split <;> rfl
  · rw [if_neg h1]
    by_cases h2 : v.Leaves .upper up
    · exact (if_pos h2).trans (if_pos (Or.inr h2)).symm
    · exact (if_neg h2).trans (if_neg (not_or.2 ⟨h1, h2⟩)).symm

/-- R35: a batch with a request for each channel moves the dead-time end exactly if a channel leaves the active level. -/
theorem pair_batch_both (v : PairView) (t : Nat) (kind : WaitKind) (lo up : Level) :
    let w := (v.batch t (some { level := lo, kind := .nonScheduled kind })
      (some { level := up, kind := .nonScheduled kind })).view
    (v.Leaves .lower lo ∨ v.Leaves .upper up → w.pair = { v.pair with deadTimeEnd := satAdd t v.pair.deadTime }) ∧
      (¬v.Leaves .lower lo → ¬v.Leaves .upper up → w.pair = v.pair) := by
  intro w
  have hw : w.pair = if v.Leaves .lower lo ∨ v.Leaves .upper up
      then { v.pair with deadTimeEnd := satAdd t v.pair.deadTime } else v.pair := by
    unfold w batch
    by_cases he : v.pair.enabled = true
    · rw [if_pos he]
      exact pair_guardEnabled_both v t kind lo up
    · have hi : ∀ l, v.pair.isActive l = false := fun l => by simp [Pair.isActive, he]
      rw [if_neg he]
      refine ((applyDisabled_pair ..).trans (applyDisabled_pair ..)).trans (if_neg ?_).symm
      rintro (h | h) <;> exact Bool.false_ne_true ((hi _).symm.trans h.1)
  rw [hw]
  exact ⟨fun h => if_pos h, fun h1 h2 => if_neg fun h => h.elim h1 h2⟩

end PairView

namespace Part

variable {p : Part}

theorem pairView_of_output {p' : Part} (h : p'.output = p.output) (k : Fin 16) : p'.pairView k = p.pairView k := by
  unfold pairView channel pair
  rw [h]

/-- A batch of requests changes the pair it is for, as the guard says. -/
theorem pairView_requestBatch (p : Part) (k k' : Fin 16) (lo up : Option Request) : (p.requestBatch k lo up).pairView k' =
    if k' = k then ((p.pairView k).batch p.now lo up).view else p.pairView k' := by
  rw [← pairView_setPairView]
  refine pairView_of_output ?_ k'
  simp [requestBatch, batch]

/-- The request for the safe level of a channel of the list. -/
def safePart (p : Part) (l : List (Fin 32)) (kind : WaitKind) (k : Fin 16) (side : Side) : Option Request :=
  if l.contains (channelOf k side) then some { level := (p.channel (channelOf k side)).safe, kind := .nonScheduled kind }
  else none

theorem safePart_of_pairView {p' : Part} {k : Fin 16} (h : p'.pairView k = p.pairView k) (l : List (Fin 32))
    (kind : WaitKind) (side : Side) : p'.safePart l kind k side = p.safePart l kind k side := by
  unfold safePart
  rw [← get_pairView, ← get_pairView, h]

/-- One step of the requests for safe levels. -/
def requestPair (l : List (Fin 32)) (kind : WaitKind) (p : Part) (k : Fin 16) : Part :=
  p.requestBatch k (p.safePart l kind k .lower) (p.safePart l kind k .upper)

theorem requestSafe_eq (p : Part) (l : List (Fin 32)) (kind : WaitKind) :
    p.requestSafe l kind = (List.finRange 16).foldl (requestPair l kind) p := rfl

theorem pairView_requestPairs (l : List (Fin 32)) (kind : WaitKind) (ks : List (Fin 16)) (hn : ks.Nodup) (p : Part)
    (k : Fin 16) : (ks.foldl (requestPair l kind) p).pairView k =
      if k ∈ ks then ((p.pairView k).batch p.now (p.safePart l kind k .lower) (p.safePart l kind k .upper)).view
      else p.pairView k := by
  induction ks generalizing p with
  | nil => rfl
  | cons x ks ih =>
    obtain ⟨hx, hn⟩ := List.nodup_cons.1 hn
    have hnow : (requestPair l kind p x).now = p.now := congrArg Clock.time (requestBatch_clock ..)
    have hfirst := pairView_requestBatch p x k (p.safePart l kind x .lower) (p.safePart l kind x .upper)
    rw [List.foldl_cons, ih hn, hnow]
    by_cases hk : k = x
    · subst hk
      rw [if_neg hx, if_pos List.mem_cons_self]
      exact hfirst.trans (if_pos rfl)
    · have hkeep : (requestPair l kind p x).pairView k = p.pairView k := hfirst.trans (if_neg hk)
      rw [hkeep, safePart_of_pairView hkeep, safePart_of_pairView hkeep]
      simp [hk]

/-- R43, R50: each pair takes its batch of requests for the safe levels. -/
theorem pairView_requestSafe (p : Part) (l : List (Fin 32)) (kind : WaitKind) (k : Fin 16) :
    (p.requestSafe l kind).pairView k =
      ((p.pairView k).batch p.now (p.safePart l kind k .lower) (p.safePart l kind k .upper)).view := by
  rw [requestSafe_eq, pairView_requestPairs l kind _ (List.nodup_finRange 16), if_pos (List.mem_finRange k)]

/-- A channel of the list gets its safe level, or waits for it. -/
theorem requested_requestSafe {l : List (Fin 32)} {c : Fin 32} (hc : c ∈ l) (p : Part) (kind : WaitKind) :
    PairView.Requested (p.pair (pairOf c)) kind (p.channel c).safe (p.channel c) ((p.requestSafe l kind).channel c) := by
  have hpart : p.safePart l kind (pairOf c) (sideOf c) = some { level := (p.channel c).safe, kind := .nonScheduled kind } := by
    unfold safePart
    rw [channelOf_pairOf, if_pos (by simpa using hc)]
  have h := PairView.requested_batch (p.pairView (pairOf c)) p.now kind (p.channel c).safe
    (lo := p.safePart l kind (pairOf c) .lower) (up := p.safePart l kind (pairOf c) .upper) (side := sideOf c)
    (by rw [← hpart]; cases sideOf c <;> rfl)
  rw [← pairView_requestSafe, get_pairView, get_pairView, channelOf_pairOf] at h
  exact h

end Part

end Sys2Proof.Machine
end

section
/-!
What an accepted SOFT RESET leaves (R194).
-/

namespace Sys2Proof.Machine

namespace Part

variable {p : Part}

theorem modDomain_self {d : Fin 8} {f : Domain → Domain} (h : f (p.domain d) = p.domain d) : p.modDomain d f = p := by
  have : updateAt p.domains d f = p.domains := by
    unfold updateAt
    rw [show f p.domains[d] = p.domains[d] from h]
    simp
  unfold modDomain
  rw [this]

/-- With every domain at its reset values, a report of an applied request changes nothing (R76). -/
theorem requestBatch_of_reset (h : ∀ d, p.domain d = Domain.reset) (k : Fin 16) (lo up : Option Request) :
    p.requestBatch k lo up = p.setPairView k ((p.pairView k).batch p.now lo up).view := by
  have hnote (q : Part) (hq : ∀ d, q.domain d = Domain.reset) (l : List SafeReport) : q.noteReports k l = q :=
    List.foldl_fixed' (fun r => modDomain_self (by rw [hq]; rfl)) l
  have hcheck (q : Part) (hq : ∀ d, q.domain d = Domain.reset) (l : List SafeReport) : q.checkReported l = q := by
    refine List.foldl_fixed' (fun r => ?_) l
    unfold checkSafe
    exact if_neg fun hc => by rw [hq] at hc; cases hc.1
  have hset : ∀ d, (p.setPairView k ((p.pairView k).batch p.now lo up).view).domain d = Domain.reset := h
  unfold requestBatch batch
  dsimp only
  rw [hnote _ hset, hcheck _ hset]

theorem requestPairs_of_reset (l : List (Fin 32)) (kind : WaitKind) (ks : List (Fin 16)) (p : Part)
    (h : ∀ d, p.domain d = Domain.reset) :
    ks.foldl (requestPair l kind) p = { p with output := (ks.foldl (requestPair l kind) p).output } := by
  induction ks generalizing p with
  | nil => rfl
  | cons k ks ih =>
    have hfirst : requestPair l kind p k = p.setPairView k _ := requestBatch_of_reset h k _ _
    rw [List.foldl_cons, hfirst]
    exact ih _ h

/-- With every domain at its reset values, the requests for the safe levels change the Output Stage alone. -/
theorem requestSafe_of_reset (h : ∀ d, p.domain d = Domain.reset) (l : List (Fin 32)) (kind : WaitKind) :
    p.requestSafe l kind = { p with output := (p.requestSafe l kind).output } :=
  requestPairs_of_reset l kind (List.finRange 16) p h

theorem domain_softResetBlocks (p : Part) (d : Fin 8) : p.softResetBlocks.domain d = Domain.reset := by
  simp [domain, softResetBlocks]

/-- R194: a SOFT RESET changes the blocks, and then the Output Stage. -/
theorem softReset_eq (p : Part) : p.softReset = { p.softResetBlocks with output := p.softReset.output } :=
  requestSafe_of_reset (domain_softResetBlocks p) _ _

theorem channel_softResetBlocks (p : Part) (c : Fin 32) : p.softResetBlocks.channel c = softResetChannel (p.channel c) := by
  simp [channel, softResetBlocks]

theorem pair_softResetBlocks (p : Part) (k : Fin 16) : p.softResetBlocks.pair k = p.pair k := rfl

/-- R50: each channel is SCHEDULED and at its safe level, or waits for it. -/
theorem channel_softReset (p : Part) (c : Fin 32) :
    (p.softReset.channel c).force = none ∧ (p.softReset.channel c).safe = (p.channel c).safe ∧
      (((p.softReset.channel c).level = (p.channel c).safe ∧ (p.softReset.channel c).waiting = none) ∨
        ((p.pair (pairOf c)).isActive (p.channel c).safe = true ∧ (p.softReset.channel c).level = (p.channel c).level ∧
          (p.softReset.channel c).waiting = some { level := (p.channel c).safe, kind := .reset })) := by
  have h := requested_requestSafe (List.mem_finRange c) p.softResetBlocks .reset
  rw [channel_softResetBlocks, pair_softResetBlocks] at h
  exact h

theorem pairView_pair (p : Part) (k : Fin 16) : (p.pairView k).pair = p.pair k := rfl

/-- R35, R50: the dead-time end of a pair moves exactly if one of its channels leaves the active level. -/
theorem pair_softReset (p : Part) (k : Fin 16) :
    let leaves (side : Side) : Prop := (p.pair k).isActive (p.channel (channelOf k side)).level = true ∧
      (p.channel (channelOf k side)).safe ≠ (p.channel (channelOf k side)).level
    ((leaves .lower ∨ leaves .upper) → p.softReset.pair k = { p.pair k with
      deadTimeEnd := min (p.clock.time + (p.pair k).deadTime) (2 ^ 64 - 1) }) ∧
    (¬leaves .lower → ¬leaves .upper → p.softReset.pair k = p.pair k) := by
  intro leaves
  have hpart (side : Side) : p.softResetBlocks.safePart (List.finRange 32) .reset k side =
      some { level := (p.channel (channelOf k side)).safe, kind := .nonScheduled .reset } := by
    unfold safePart
    rw [if_pos (by simp), channel_softResetBlocks]
    rfl
  have hv := pairView_requestSafe p.softResetBlocks (List.finRange 32) .reset k
  rw [hpart, hpart] at hv
  have h := PairView.pair_batch_both (p.softResetBlocks.pairView k) p.softResetBlocks.now .reset
    (p.channel (channelOf k .lower)).safe (p.channel (channelOf k .upper)).safe
  dsimp only at h
  rw [← hv] at h
  have hleaves (side : Side) : (p.softResetBlocks.pairView k).Leaves side (p.channel (channelOf k side)).safe ↔
      leaves side := by
    unfold PairView.Leaves
    rw [get_pairView, channel_softResetBlocks]
    exact Iff.rfl
  rw [hleaves, hleaves, pairView_pair, pairView_pair, pair_softResetBlocks] at h
  unfold softReset
  refine ⟨fun hl => (h.1 hl).trans ?_, h.2⟩
  rw [satAdd_eq_min]
  rfl

end Part

theorem exec_softReset (s : State) : exec .softReset s = event (fun p => some p.softReset) s := rfl

theorem softReset_takes {s : State} (hr : s.part.resetAsserted = false) : takes .softReset s s.part.softReset := by
  have hs : s.part.softReset.settle = s.part.softReset := by
    rw [Part.softReset_eq]
    exact Part.settle_calm rfl (by simp [Part.softResetBlocks, Engine.reset])
  unfold takes
  rw [exec_softReset, event_some (f := fun p => some p.softReset) hr rfl, hs]

namespace Part

theorem queue_softReset (p : Part) (q : Fin 8) :
    p.softResetBlocks.queue q = { p.queue q with state := .disabled, head := 0, tail := 0, hold := none } := by
  simp [queue, softResetBlocks, softResetCommand, softResetQueue]

theorem cq_softReset (p : Part) (n : Fin 4) : p.softResetBlocks.cq n =
    { p.cq n with
      enabled := false, head := 0, tail := 0, phase := true, reserved := 0, unsignalled := 0, timer := none } := by
  simp [cq, softResetBlocks, softResetPosting, softResetCq]

theorem entry_softReset (p : Part) (i : Fin 64) : p.softResetBlocks.entry i = none := by
  simp [entry, softResetBlocks]

theorem input_softReset (p : Part) (n : Fin 16) : p.softResetBlocks.input n = FaultInput.reset := by
  simp [input, softResetBlocks]

end Part

/-- Settles O3, by the blocks' soft-reset values and the pair guard's answer to the RESET requests. -/
theorem softResetLeaves : Obligations.SoftResetLeaves := by
  intro s hr
  refine ⟨_, softReset_takes hr, ?_⟩
  have hch := Part.channel_softReset s.part
  have hpair := Part.pair_softReset s.part
  have htl : ∀ c, s.part.softReset.timeline c = [] := Part.timeline_softReset s.part
  have hq : ∀ q, s.part.softReset.inUse q = 0 := fun q => Part.inUse_of_empty htl q
  have heq := Part.softReset_eq s.part
  have htable : s.part.softReset.table = s.part.softResetBlocks.table := by rw [heq]
  have hdomains : s.part.softReset.domains = s.part.softResetBlocks.domains := by rw [heq]
  have hinputs : s.part.softReset.inputs = s.part.softResetBlocks.inputs := by rw [heq]
  have hcommand : s.part.softReset.command = s.part.softResetBlocks.command := by rw [heq]
  have hposting : s.part.softReset.posting = s.part.softResetBlocks.posting := by rw [heq]
  refine ⟨by rw [heq]; rfl, by rw [heq]; rfl, htl, fun i => ?_, fun d => ?_, fun n => ?_, by rw [heq]; rfl, ?_,
    fun q => ⟨?_, hq q⟩, fun n => ⟨?_, ?_⟩, ?_, ?_, hpair, hch⟩
  · rw [Part.entry, htable]
    exact Part.entry_softReset s.part i
  · rw [Part.domain, hdomains]
    exact Part.domain_softResetBlocks s.part d
  · rw [Part.input, hinputs]
    exact Part.input_softReset s.part n
  · rw [hcommand]
    exact ⟨rfl, rfl, rfl⟩
  · rw [Part.queue, hcommand]
    exact Part.queue_softReset s.part q
  · rw [Part.waitingCompletions, hposting]
    rfl
  · rw [Part.cq, hposting]
    exact Part.cq_softReset s.part n
  · rw [Part.queuedNotices, hposting]
    exact ⟨rfl, rfl⟩
  · rw [hposting]
    exact ⟨rfl, rfl, rfl, by simp [Posting.irqAsserted, Part.softResetBlocks, Part.softResetPosting, Posting.reset]⟩

end Sys2Proof.Machine
end

section
/-!
What no move changes of a channel or a pair, and which pairs the trips of an event reach.
-/

namespace Sys2Proof.Machine

namespace PairView

/-- The safe level of each side is as it was. -/
def KeepsSafe (v v' : PairView) : Prop := ∀ side, (v'.get side).safe = (v.get side).safe

variable {v v' v'' : PairView}

theorem KeepsSafe.refl (v : PairView) : KeepsSafe v v := fun _ => rfl

theorem KeepsSafe.trans (h : KeepsSafe v v') (h' : KeepsSafe v' v'') : KeepsSafe v v'' :=
  fun side => (h' side).trans (h side)

theorem keepsSafe_wait (v : PairView) (side : Side) (w : Option Waiting) : KeepsSafe v (v.wait side w) := fun side' => by
  rw [get_wait]
  split
  · rename_i h
    rw [h]
  · rfl

theorem keepsSafe_apply (v : PairView) (side : Side) (l : Level) : KeepsSafe v (v.apply side l) := fun side' => by
  rw [get_apply]
  split
  · rename_i h
    rw [h]
  · rfl

theorem keepsSafe_applyWaiting (v : PairView) (side : Side) : KeepsSafe v (v.applyWaiting side).1 := by
  unfold applyWaiting
  split
  · exact .refl v
  · exact (keepsSafe_apply v side _).trans (keepsSafe_wait _ side none)

theorem keepsSafe_goInactive (v : PairView) (t : Nat) (side : Side) (l : Level) :
    KeepsSafe v (v.goInactive t side l).1 := by
  have hd (u : PairView) (pair : Pair) : KeepsSafe u { u with pair := pair } := fun side' => by rw [get_withPair]
  unfold goInactive
  dsimp only
  split
  · split
    · exact ((keepsSafe_apply v side l).trans (hd _ _)).trans (keepsSafe_applyWaiting _ _)
    · exact (keepsSafe_apply v side l).trans (hd _ _)
  · exact keepsSafe_apply v side l

theorem keepsSafe_settlePart (v : PairView) (t : Nat) (side : Side) (r : Option Request) :
    KeepsSafe v (v.settlePart t side r).1 := by
  unfold settlePart
  split
  · exact .refl v
  · split
    · exact .refl v
    · exact keepsSafe_goInactive _ _ _ _
    · exact .refl v

theorem keepsSafe_judgePart (v : PairView) (t : Nat) (side : Side) (r : Option Request) (a : Option Answer) :
    KeepsSafe v (v.judgePart t side r a).1 := by
  unfold judgePart judge
  dsimp only
  split
  · split
    · split
      · exact .refl v
      · split
        · exact .refl v
        · split
          · exact .refl v
          · exact keepsSafe_apply _ _ _
    · split
      · exact keepsSafe_wait _ _ _
      · exact keepsSafe_apply _ _ _
  · exact .refl v

theorem keepsSafe_supersede (v : PairView) (side : Side) (r : Option Request) : KeepsSafe v (v.supersede side r) := by
  unfold supersede
  split
  · exact keepsSafe_wait _ _ _
  · exact .refl v

theorem keepsSafe_applyDisabled (v : PairView) (side : Side) (r : Option Request) :
    KeepsSafe v (v.applyDisabled side r).1 := by
  unfold applyDisabled
  split
  · exact .refl v
  · exact (keepsSafe_wait v side none).trans (keepsSafe_apply _ _ _)

/-- A batch keeps the safe levels of its pair. -/
theorem keepsSafe_batch (v : PairView) (t : Nat) (lo up : Option Request) : KeepsSafe v (v.batch t lo up).view := by
  have h2 : KeepsSafe v (v.settledUpper t lo up).1 :=
    (((keepsSafe_supersede v .lower lo).trans (keepsSafe_supersede _ .upper up)).trans (keepsSafe_settlePart _ _ _ _)).trans
      (keepsSafe_settlePart _ _ _ _)
  unfold batch
  split
  · unfold guardEnabled
    dsimp only
    split
    · exact h2
    · exact (h2.trans (keepsSafe_judgePart _ _ _ _ _)).trans (keepsSafe_judgePart _ _ _ _ _)
  · exact (keepsSafe_applyDisabled v .lower lo).trans (keepsSafe_applyDisabled _ .upper up)

/-- A dead-time expiry keeps the safe levels of its pair. -/
theorem keepsSafe_expire (v : PairView) : KeepsSafe v v.expire.1 := by
  have h (u : PairView) (side : Side) : KeepsSafe u (u.expireSide side).1 := by
    unfold expireSide
    split
    · exact .refl u
    · exact keepsSafe_applyWaiting _ _
  exact (h v .lower).trans (h _ .upper)

end PairView

namespace Part

variable {W : Fin 4 → Prop} {p p' : Part}

theorem channel_of_output (h : p'.output = p.output) (c : Fin 32) : p'.channel c = p.channel c := by
  rw [channel, h]
  rfl

theorem pair_of_output (h : p'.output = p.output) (k : Fin 16) : p'.pair k = p.pair k := by
  rw [pair, h]
  rfl

theorem safe_setPairView {k : Fin 16} {v : PairView} (h : PairView.KeepsSafe (p.pairView k) v) (c : Fin 32) :
    ((p.setPairView k v).channel c).safe = (p.channel c).safe := by
  rw [channel_setPairView]
  split
  · rename_i hk
    subst hk
    rw [h, get_pairView, channelOf_pairOf]
  · rfl

/-- No move changes a safe level. -/
theorem Moves.safe (h : Moves W p p') (c : Fin 32) : (p'.channel c).safe = (p.channel c).safe := by
  refine h.eq (fun p => (p.channel c).safe) fun a b m => ?_
  cases m with
  | completion n x _ => exact congrArg Channel.safe (channel_of_output (handCompletion_output ..) c)
  | notice n => exact congrArg Channel.safe (channel_of_output (handNotice_output ..) c)
  | resolve o s => exact congrArg Channel.safe (channel_of_output (resolve_output ..) c)
  | channel c' f _ hs =>
    show ((a.modChannel c' f).channel c).safe = _
    rw [channel_modChannel]
    split
    · rename_i hc
      rw [hs, hc]
    · rfl
  | guarded k lo up => exact safe_setPairView (PairView.keepsSafe_batch _ _ _ _) c
  | expired k => exact safe_setPairView (PairView.keepsSafe_expire _) c
  | domain d f _ => rfl
  | timeline c' tl _ => rfl
  | counted => rfl

/-- No move changes which level a pair has as active. -/
theorem Moves.isActive (h : Moves W p p') (k : Fin 16) (l : Level) : (p'.pair k).isActive l = (p.pair k).isActive l := by
  refine h.eq (fun p => (p.pair k).isActive l) fun a b m => ?_
  have hset (v : PairView) (k' : Fin 16) (hv : PairView.Sound (a.pairView k') v) :
      ((a.setPairView k' v).pair k).isActive l = (a.pair k).isActive l := by
    rw [pair_setPairView]
    split
    · rename_i hk
      rw [hk]
      exact PairView.isActive_congr hv.enabled hv.polarity l
    · rfl
  cases m with
  | completion n x _ => exact congrArg (Pair.isActive · l) (pair_of_output (handCompletion_output ..) k)
  | notice n => exact congrArg (Pair.isActive · l) (pair_of_output (handNotice_output ..) k)
  | resolve o s => exact congrArg (Pair.isActive · l) (pair_of_output (resolve_output ..) k)
  | channel c' f _ _ => rfl
  | guarded k' lo up => exact hset _ k' (PairView.sound_batch ..)
  | expired k' => exact hset _ k' (PairView.sound_expire _)
  | domain d f _ => rfl
  | timeline c' tl _ => rfl
  | counted => rfl

/-! ### The pairs a trip reaches -/

/-- A domain that no channel of pair k is a member of, and none is named in its safe sequence. -/
def Spares (x : Domain) (k : Fin 16) : Prop :=
  ∀ c : Fin 32, pairOf c = k → x.members.getLsbD c.val = false ∧ ∀ e ∈ x.sequence, e.channel ≠ c

theorem pairView_foldl {β : Type} (f : Part → β → Part) (k : Fin 16) (l : List β)
    (h : ∀ b ∈ l, ∀ p, (f p b).pairView k = p.pairView k) (p : Part) : (l.foldl f p).pairView k = p.pairView k := by
  induction l generalizing p with
  | nil => rfl
  | cons b l ih =>
    rw [List.foldl_cons, ih fun x hx => h x (List.mem_cons_of_mem _ hx)]
    exact h b List.mem_cons_self p

theorem pairView_modChannel {k : Fin 16} {c : Fin 32} (hc : pairOf c ≠ k) (p : Part) (f : Channel → Channel) :
    (p.modChannel c f).pairView k = p.pairView k := by
  have h (side : Side) : (p.modChannel c f).channel (channelOf k side) = p.channel (channelOf k side) := by
    rw [channel_modChannel, if_neg fun e => hc (by rw [← e, pairOf_channelOf])]
  unfold pairView
  rw [h, h]
  rfl

theorem pairView_batch {k k' : Fin 16} (hk : k ≠ k') (p : Part) (lo up : Option Request) :
    (p.batch k' lo up).1.pairView k = p.pairView k := by
  refine (pairView_of_output (p := p.setPairView k' ((p.pairView k').batch p.now lo up).view) ?_ k).trans
    ((pairView_setPairView ..).trans (if_neg hk))
  simp [batch]

theorem pairView_modDomain (p : Part) (d : Fin 8) (f : Domain → Domain) (k : Fin 16) :
    (p.modDomain d f).pairView k = p.pairView k := rfl

theorem pairView_forceMembers {k : Fin 16} {l : List (Fin 32)} (h : ∀ c ∈ l, pairOf c ≠ k) (p : Part) :
    (p.forceMembers l).pairView k = p.pairView k := by
  refine pairView_foldl _ k l (fun c hc p => ?_) p
  rw [pairView_modChannel (h c hc)]
  exact pairView_modChannel (h c hc) p _

theorem pairView_immediateBatch {k : Fin 16} {l : List (Fin 32)} (h : ∀ c ∈ l, pairOf c ≠ k) (d : Fin 8) (k' : Fin 16)
    (p : Part) : (p.immediateBatch d k' l).pairView k = p.pairView k := by
  unfold immediateBatch
  dsimp only
  by_cases hk : k = k'
  · subst hk
    have hnot (side : Side) : l.contains (channelOf k side) = false := by
      rw [Bool.eq_false_iff]
      intro hc
      exact h _ (by simpa using hc) (pairOf_channelOf k side)
    rw [hnot, hnot]
    rfl
  · split
    · have hmark (p : Part) (b : Bool) (c : Fin 32) :
          (if b then p.modDomain d fun x => x.markWaiting c none else p).pairView k = p.pairView k := by
        split <;> rfl
      rw [hmark, hmark]
      exact pairView_batch hk p _ _
    · rfl

theorem pairView_makeEntry {k : Fin 16} {c : Fin 32} (h : pairOf c ≠ k) (d : Fin 8) (n : Nat) (p : Part) :
    (p.makeEntry d n c).pairView k = p.pairView k := by
  unfold makeEntry
  dsimp only
  rw [pairView_modDomain]
  split <;> exact pairView_batch (Ne.symm h) p _ _

theorem mem_numbered {l : List SequenceEntry} {x : Nat × SequenceEntry} (h : x ∈ numbered l) : x.2 ∈ l := by
  obtain ⟨y, hy, rfl⟩ := List.mem_map.1 h
  exact List.fst_mem_of_mem_zipIdx hy

/-- R71, R74, R75: a trip leaves a pair alone that its domain spares. -/
theorem pairView_trip {d : Fin 8} {k : Fin 16} (h : Spares (p.domain d) k) (cause : Cause) :
    (p.trip d cause).pairView k = p.pairView k := by
  have hmember : ∀ c ∈ (p.domain d).memberList, pairOf c ≠ k := fun c hc hk => by
    rw [mem_memberList, (h c hk).1] at hc
    cases hc
  have himmediate : ∀ c ∈ (p.domain d).immediateList, pairOf c ≠ k := fun c hc =>
    hmember c (List.mem_filter.1 hc).1
  have hforce (q : Part) : (q.forceMembers (p.domain d).memberList).pairView k = q.pairView k :=
    pairView_forceMembers hmember q
  unfold trip
  dsimp only
  rw [pairView_of_output (checkSafe_output ..), pairView_of_output (notify_output ..)]
  rw [show ∀ q : Part, (q.makeZeroEntries d (p.domain d).sequence).pairView k = q.pairView k from fun q =>
    pairView_foldl _ k _ (fun x hx q => ?_) q]
  · rw [show ∀ q : Part, (q.driveImmediate d (p.domain d).immediateList).pairView k = q.pairView k from fun q =>
      pairView_foldl _ k _ (fun k' _ q => pairView_immediateBatch himmediate d k' q) q]
    split
    · rw [pairView_of_output (dropOn_output ..), hforce]
      rfl
    · rw [hforce]
      rfl
  · split
    · refine pairView_makeEntry (fun hk => ?_) d _ q
      exact (h _ hk).2 _ (mem_numbered hx) rfl
    · rfl

/-- An offer leaves a pair alone that the domain spares, if it is ARMED. -/
theorem pairView_offer {d : Fin 8} {k : Fin 16} (h : (p.domain d).state = .armed → Spares (p.domain d) k)
    (cause : Cause) : (p.offer cause d).pairView k = p.pairView k := by
  by_cases hs : (p.domain d).selects cause = true
  · cases hx : (p.domain d).state with
    | disarmed => rw [offer_disarmed hs hx]
    | armed =>
      rw [offer_armed hs hx, tripArmed]
      split
      · rw [pairView_of_output (addCause_output ..), pairView_trip (h hx)]
      · exact pairView_trip (h hx) cause
    | tripping | tripped =>
      rw [offer_tripped hs (by simp [hx])]
      split
      · rfl
      · exact pairView_of_output (addCause_output ..) k
  · rw [offer_unselected hs]

/-- An offer arms no domain, and keeps the members and the safe sequence. -/
theorem armed_of_afterOffer {x y : Domain} {cause : Cause} {now : Nat} (h : (x.afterOffer cause now).Onward y)
    (hy : y.state = .armed) : x.state = .armed ∧ y.members = x.members ∧ y.sequence = x.sequence := by
  have ha : (x.afterOffer cause now).state = .armed := by
    rcases h.state with e | ⟨-, e⟩
    · exact e ▸ hy
    · rw [e] at hy
      cases hy
  rw [h.members, h.sequence]
  unfold Domain.afterOffer at ha ⊢
  split at ha
  · cases hx : x.state with
    | disarmed =>
      rw [Domain.offered_disarmed hx, hx] at ha
      cases ha
    | armed =>
      rw [Domain.offered_armed hx] at ha
      cases ha
    | tripping | tripped =>
      rw [Domain.offered_tripped (by simp [hx])] at ha
      split at ha <;> (rw [hx] at ha; cases ha)
  · rename_i hs
    rw [if_neg hs]
    exact ⟨ha, rfl, rfl⟩

/-- Every ARMED domain spares pair k. -/
def AllSpare (p : Part) (k : Fin 16) : Prop := ∀ d, (p.domain d).state = .armed → Spares (p.domain d) k

theorem AllSpare.offer {k : Fin 16} (h : p.AllSpare k) (cause : Cause) (d : Fin 8) : (p.offer cause d).AllSpare k := by
  intro e he
  have ho := onward_offer p cause d e
  have hsame {x y : Domain} (hx : x.state = .armed → Spares x k) (hxy : x.state = .armed ∧ y.members = x.members ∧
      y.sequence = x.sequence) : Spares y k := by
    obtain ⟨ha, hm, hs⟩ := hxy
    unfold Spares
    rw [hm, hs]
    exact hx ha
  by_cases hd : e = d
  · subst hd
    rw [if_pos rfl] at ho
    exact hsame (h e) (armed_of_afterOffer ho he)
  · rw [if_neg hd] at ho
    refine hsame (h e) ⟨?_, ho.members, ho.sequence⟩
    rcases ho.state with hst | ⟨-, hst⟩
    · exact hst ▸ he
    · rw [hst] at he
      cases he

/-- An event's offers leave a pair alone that every ARMED domain spares. -/
theorem pairView_offerAll {k : Fin 16} (h : p.AllSpare k) (cause : Cause) :
    (p.offerAll cause).pairView k = p.pairView k := by
  have hfold (l : List (Fin 8)) (q : Part) (hq : q.AllSpare k) :
      (l.foldl (fun p d => p.offer cause d) q).pairView k = q.pairView k := by
    induction l generalizing q with
    | nil => rfl
    | cons d l ih => exact (ih _ (hq.offer cause d)).trans (pairView_offer (hq d) cause)
  exact hfold _ { p with freeIndex := p.freeIndex + 1 } h

end Part

end Sys2Proof.Machine
end

section
/-!
What Engine Control does to the domains and the channels at HALT and at FATAL: the offer of its source, and the channels it takes
over (R43, R69, R70, R189, R192).
-/

namespace Sys2Proof.Machine

namespace Part

variable {W : Fin 4 → Prop} {p p' : Part}

/-- The offers of Engine Control and the taking over of channels. -/
def controlOffers (p : Part) (cause : Cause) : Part := (p.offerAll cause).takeOver

theorem moves_controlOffers (p : Part) (cause : Cause) : Moves W p (p.controlOffers cause) :=
  (moves_offerAll _ _).trans (moves_takeOver _)

/-- R69, R70: the offer stands in the domain records, with the drives gone on. -/
theorem onward_controlOffers (p : Part) (cause : Cause) (d : Fin 8) :
    ((p.domain d).afterOffer cause p.now).Onward ((p.controlOffers cause).domain d) :=
  (onward_offerAll p cause d).trans (domainsOnward_takeOver _ d)

theorem offered_controlOffers (p : Part) (cause : Cause) : p.offered cause (p.controlOffers cause) :=
  offered_of_onward (onward_controlOffers p cause)

/-- An offer leaves a DISARMED domain as it was. -/
theorem domain_offerAll_disarmed {d : Fin 8} (h : (p.domain d).state = .disarmed) (cause : Cause) :
    ((p.offerAll cause).domain d).state = .disarmed := by
  have ho := onward_offerAll p cause d
  have hx : (p.domain d).afterOffer cause p.now = p.domain d := by
    unfold Domain.afterOffer
    rw [Domain.offered_disarmed h, ite_self]
  rw [hx] at ho
  rcases ho.state with hs | ⟨hs, -⟩
  · exact hs.trans h
  · rw [h] at hs
    cases hs

theorem members_afterOffer (x : Domain) (cause : Cause) (now : Nat) : (x.afterOffer cause now).members = x.members := by
  unfold Domain.afterOffer
  split
  · cases hx : x.state with
    | disarmed => rw [Domain.offered_disarmed hx]
    | armed =>
      rw [Domain.offered_armed hx]
      rfl
    | tripping | tripped =>
      rw [Domain.offered_tripped (by simp [hx])]
      split <;> rfl
  · rfl

theorem members_offerAll (p : Part) (cause : Cause) (d : Fin 8) :
    ((p.offerAll cause).domain d).members = (p.domain d).members :=
  (onward_offerAll p cause d).members.trans (members_afterOffer ..)

/-- R43: a channel whose domains are all DISARMED is taken over, whatever was offered before. -/
theorem mem_takenOver {c : Fin 32}
    (h : ∀ d : Fin 8, (p.domain d).members.getLsbD c.val = true → (p.domain d).state = .disarmed) (cause : Cause) :
    c ∈ (p.offerAll cause).takenOver := by
  simp only [takenOver, List.mem_filter, List.mem_finRange, true_and]
  cases hd : (p.offerAll cause).domainOf c with
  | none => rfl
  | some d =>
    have hm := members_of_domainOf hd
    rw [members_offerAll] at hm
    simp only [domain_offerAll_disarmed (h d hm) cause, beq_self_eq_true]

theorem channel_forceChannels (l : List (Fin 32)) (p : Part) (c : Fin 32) :
    (l.foldl (fun p c => p.forceChannel .engine c) p).channel c =
      if c ∈ l then { p.channel c with force := some .engine } else p.channel c := by
  induction l generalizing p with
  | nil => rfl
  | cons x l ih =>
    rw [List.foldl_cons, ih, forceChannel, channel_modChannel]
    by_cases hx : c = x
    · subst hx
      simp
    · simp [hx]

theorem pair_forceChannels (l : List (Fin 32)) (p : Part) (k : Fin 16) :
    (l.foldl (fun p c => p.forceChannel .engine c) p).pair k = p.pair k :=
  foldl_keeps (fun p : Part => p.pair k) (fun p c => p.forceChannel .engine c) (fun _ _ => rfl) l p

/-- R43: what taking over does to a channel. -/
theorem channel_takeOver {c : Fin 32} (h : c ∈ p.takenOver) :
    (p.takeOver.channel c).force = some .engine ∧ (p.takeOver.channel c).safe = (p.channel c).safe ∧
      (((p.takeOver.channel c).level = (p.channel c).safe ∧ (p.takeOver.channel c).waiting = none) ∨
        ((p.pair (pairOf c)).isActive (p.channel c).safe = true ∧ (p.takeOver.channel c).level = (p.channel c).level ∧
          (p.takeOver.channel c).waiting = some { level := (p.channel c).safe, kind := .engineForce })) := by
  have hr := requested_requestSafe h (p.takenOver.foldl (fun p c => p.forceChannel .engine c) p) .engineForce
  rw [channel_forceChannels, if_pos h, pair_forceChannels] at hr
  exact hr

/-- R43: what Engine Control does to the channels of no domain or of a DISARMED one. -/
theorem engineForced_controlOffers (p : Part) (cause : Cause) : p.engineForced (p.controlOffers cause) := by
  intro c hc
  have hm := moves_offerAll (W := fun _ => True) p cause
  obtain ⟨hforce, hsafe, hlevel⟩ := channel_takeOver (mem_takenOver hc cause)
  rw [hm.safe] at hsafe hlevel
  rw [hm.isActive] at hlevel
  refine ⟨hforce, hsafe, hlevel.imp id fun ⟨ha, hl, hw⟩ => ⟨ha, hw, fun hspare => hl.trans ?_⟩⟩
  have hv := pairView_offerAll (p := p) (k := pairOf c) (fun d hd c' hc' => hspare d hd c' hc') cause
  have := congrArg (fun v => (PairView.get v (sideOf c)).level) hv
  simpa only [get_pairView, channelOf_pairOf] using this

/-- The statements read the offer and the taking over from the domains, the Output Stage and the time alone. -/
theorem offered_congr {q : Part} {cause : Cause} (domains : q.domains = p.domains) (clock : q.clock = p.clock)
    (h : q.offered cause p') : p.offered cause p' := by
  intro d
  have hd : q.domain d = p.domain d := congrArg (fun v => v[d]) domains
  have hn : q.now = p.now := congrArg Clock.time clock
  have := h d
  rw [hd, hn] at this
  exact this

theorem engineForced_congr {q : Part} (domains : q.domains = p.domains) (output : q.output = p.output)
    (h : q.engineForced p') : p.engineForced p' := by
  intro c hc
  have hd (d : Fin 8) : q.domain d = p.domain d := congrArg (fun v => v[d]) domains
  have := h c
  simp only [hd, channel_of_output output, pair_of_output output] at this
  exact this hc

/-! ### What the moves of a stopped engine keep -/

/-- While the Posting Unit is not posting, what is handed over is discarded (R169). -/
theorem handCompletion_stopped (hp : p.isPosting = false) (n : Fin 4) (c : Completion) : p.handCompletion n c = p := by
  rw [handCompletion, if_neg (by simp [hp])]

theorem resolve_stopped (hp : p.isPosting = false) (o : StepOutcome) (s : Step) :
    (p.resolve o s).posting = p.posting ∧ (p.resolve o s).monitor = p.monitor := by
  unfold Part.resolve
  split
  · exact ⟨rfl, rfl⟩
  · split
    · exact ⟨rfl, rfl⟩
    · dsimp only
      split
      · rw [handCompletion_stopped]
        · exact ⟨rfl, rfl⟩
        · exact hp
      · exact ⟨rfl, rfl⟩

/-- While the Posting Unit is not posting, no move changes it, and none issues a write (R169). -/
theorem Moves.stopped (h : Moves W p p') (hp : p.isPosting = false) :
    p'.posting = p.posting ∧ p'.monitor = p.monitor := by
  have hstopped (q : Part) (m : Moves W p q) : q.isPosting = false := by
    rw [isPosting_of_engine (m.eq Part.engine fun _ _ m => by cases m <;> simp), hp]
  induction h with
  | refl => exact ⟨rfl, rfl⟩
  | @tail a b hm m ih =>
    have ha := hstopped a hm
    rw [← ih.1, ← ih.2]
    cases m with
    | completion n c _ => exact ⟨by rw [handCompletion_stopped ha], by rw [handCompletion_stopped ha]⟩
    | notice n => exact ⟨by rw [handNotice, if_pos (by simp [ha])], by rw [handNotice, if_pos (by simp [ha])]⟩
    | resolve o s => exact resolve_stopped ha o s
    | channel | guarded | expired | domain | timeline | counted => exact ⟨rfl, rfl⟩

/-- An empty table stays empty under moves. -/
theorem Moves.table_empty (h : Moves W p p') (hp : ∀ i, p.entry i = none) (i : Fin 64) : p'.entry i = none := by
  refine h.keep (P := fun p => ∀ i, p.entry i = none) (fun a b m ha => ?_) hp i
  intro i
  cases m with
  | completion n c _ => exact (congrArg (fun v => v[i]) (handCompletion_table ..)).trans (ha i)
  | notice n => exact (congrArg (fun v => v[i]) (handNotice_table ..)).trans (ha i)
  | resolve o s =>
    unfold Part.resolve
    split
    · exact ha i
    · rw [ha]
      exact ha i
  | channel | guarded | expired | domain | timeline | counted => exact ha i

/-- Moves only add to the write list (R153). -/
theorem Moves.writeList (h : Moves W p p') : p.posting.writeList <+: p'.posting.writeList := by
  have hhand (q : Part) (n : Fin 4) (c : Completion) : q.posting.writeList <+: (q.handCompletion n c).posting.writeList := by
    by_cases hq : q.isPosting = true
    · rw [handCompletion_writeList hq]
      exact List.prefix_append ..
    · rw [handCompletion, if_neg hq]
  refine h.keep (P := fun q => p.posting.writeList <+: q.posting.writeList) (fun a b m ha => ha.trans ?_) (List.prefix_refl _)
  cases m with
  | completion n c _ => exact hhand a n c
  | notice n =>
    unfold Part.handNotice
    split
    · exact List.prefix_refl _
    · split
      · rw [joinWriteList_writeList]
        exact List.prefix_append ..
      · split <;> exact List.prefix_refl _
  | resolve o s =>
    unfold Part.resolve
    split
    · exact List.prefix_refl _
    · split
      · exact List.prefix_refl _
      · dsimp only
        split
        · exact hhand (a.setEntry _ none) _ _
        · exact List.prefix_refl _
  | channel | guarded | expired | domain | timeline | counted => exact List.prefix_refl _

end Part

end Sys2Proof.Machine
end

section
/-!
What entry to FATAL leaves (R192), and the posting faults that lead there (R167, R173).
-/

namespace Sys2Proof.Machine

namespace Part

variable {p p' : Part}

theorem isPosting_stopped (p : Part) : p.stopped.isPosting = false := rfl

/-- The first three parts of an entry to FATAL, with the offers and the taking over, leave the Posting Unit stopped (R168, R169). -/
theorem stopped_controlOffers (p : Part) : (p.stopped.controlOffers .engineFault).posting = stopPosting p.posting ∧
    (p.stopped.controlOffers .engineFault).monitor = p.monitor := by
  obtain ⟨hposting, hmonitor⟩ := (moves_controlOffers (W := fun _ => True) p.stopped .engineFault).stopped p.isPosting_stopped
  exact ⟨hposting, hmonitor⟩

theorem cq_stopPosting (u : Posting) (n : Fin 4) :
    (stopPosting u).cqs[n] = { u.cqs[n] with reserved := 0, timer := none } := by
  simp [stopPosting]

/-- The path with its read discarded, as the statements write it. -/
theorem discardPath_eq (x : CommandPath) : discardPath x = (match x with
    | .free => .free
    | .fetch q _ => .fetch q true
    | .list q h _ => .list q h true) := by cases x <;> rfl

/-- R192: what entry to FATAL leaves. -/
theorem fatalOf_enterFatal (p : Part) (reason : FatalReason) (ring : FatalRing) :
    p.fatalOf reason ring (p.enterFatal reason ring) := by
  have hm := moves_controlOffers (W := fun _ => True) p.stopped .engineFault
  have hoffered := offered_controlOffers p.stopped .engineFault
  have hforced := engineForced_controlOffers p.stopped .engineFault
  obtain ⟨hposting, hmonitor⟩ := p.stopped_controlOffers
  rw [enterFatal_eq, ← controlOffers]
  generalize p.stopped.controlOffers .engineFault = q at hm hoffered hforced hposting hmonitor
  refine ⟨?_, hm.empty p.stopped_timeline, hm.table_empty p.stopped.emptyTable_entry, ?_, ?_, fun n => ?_, ?_, ?_, ?_,
    hmonitor, ?_, ?_, ?_, hm.clock, hm.inputs⟩
  · rw [setCause_engine, modEngine_engine, hm.engine]
    rfl
  · exact congrArg Posting.writeList hposting
  · exact congrArg Posting.ring hposting
  · refine (congrArg (fun u : Posting => u.cqs[n]) hposting).trans ?_
    exact cq_stopPosting p.posting n
  · exact (congrArg (fun u : Posting => u.causes ||| engineCause) hposting :)
  · exact (congrArg Posting.enables hposting :)
  · exact congrArg Posting.fault hposting
  · refine hm.command.trans ?_
    exact congrArg (fun x => { p.command with path := x }) (discardPath_eq _)
  · exact offered_congr (q := p.stopped) rfl rfl hoffered
  · exact engineForced_congr (q := p.stopped) rfl rfl hforced

/-- R167, R192: a posting fault kept takes the engine to FATAL at the event's end. -/
theorem fatalOf_settle {reason : FatalReason} {ring : FatalRing} (h : p.posting.fault = some (reason, ring)) :
    p.fatalOf reason ring p.settle := by
  have hs := (p.enterFatal_stopped reason ring).1
  rw [settle, checkFault, h, checkHalted, if_neg (fun hh => by rw [hs] at hh; cases hh.1)]
  exact fatalOf_enterFatal p reason ring

/-! ### The posting faults -/

/-- What FATAL leaves does not depend on the fault, or on the write, that led there. -/
theorem fatalOf_endWrite {reason : FatalReason} {ring : FatalRing} {x : Option (FatalReason × FatalRing)}
    (h : (p.endWrite.modPosting fun u => { u with fault := x }).fatalOf reason ring p') :
    Part.fatalOf { p with monitor := { p.monitor with posting := none } } reason ring p' := h

/-- R167: a posting write ended by a fault, in its reason and its ring. -/
theorem writeFault_eq (h : p.posting.abandoned = false) (a : Access) (f : AccessFault) :
    p.writeFault a f = p.endWrite.modPosting fun u =>
      { u with fault := some (f.fatalReason (writtenRing a.purpose), writtenRing a.purpose) } := by
  rw [writeFault, if_neg (by simp [h])]

theorem fatalOf_writeFault (h : p.posting.abandoned = false) (a : Access) (f : AccessFault) :
    Part.fatalOf { p with monitor := { p.monitor with posting := none } } (f.fatalReason (writtenRing a.purpose))
      (writtenRing a.purpose) (p.writeFault a f).settle := by
  rw [writeFault_eq h]
  exact fatalOf_endWrite (fatalOf_settle rfl)

/-- R173: a completion that no window allows at the tail of its ring. -/
theorem issueCompletion_refused {n : Fin 4} (h : p.tailWritable n = false) (c : Completion) :
    p.issueCompletion n c = { p with posting := { p.posting with fault := some (.completionWriteViolation, .cq n) } } := by
  rw [issueCompletion, issueWrite, completionBytes_length, if_neg]
  · rfl
  · rw [show p.monitor.allows true _ 16 = false from h]
    decide

/-- R162, R173: a notice that no window allows at the tail of the notice ring has taken its sequence number and lost count. -/
theorem issueNotice_refused (h : p.noticeTailWritable = false) (n : Notice) :
    p.issueNotice n = { p with posting := { p.posting with
      fault := some (.noticeWriteViolation, .noticeRing), taken := some (p.posting.ring.sequence, p.posting.ring.lost)
      ring := { p.posting.ring with sequence := (p.posting.ring.sequence + 1) % 2 ^ 32, lost := 0 } } } := by
  unfold issueNotice
  dsimp only
  rw [issueWrite, noticeBytes_length, if_neg]
  · rfl
  · rw [modPosting_monitor, show p.monitor.allows true _ 32 = false from h]
    decide

end Part

theorem exec_accessTimeout (o : AccessOwner) (s : State) :
    exec (.accessTimeout o) s = event (fun p => p.accessTimeout o) s := rfl

theorem exec_busErrorResponse (o : AccessOwner) (s : State) :
    exec (.busErrorResponse o) s = event (fun p => p.busErrorResponse o) s := rfl

/-- A timeout or a bus error response on a posting write takes the machine to the fault's settled part. -/
theorem takes_writeFault {s : State} {a : Access} {i : Instr} {f : AccessFault} (hr : s.part.resetAsserted = false)
    (ha : s.part.monitor.posting = some a)
    (hi : (i = .accessTimeout .postingUnit ∧ f = .timeout ∧ a.limit ≤ a.timer) ∨
      (i = .busErrorResponse .postingUnit ∧ f = .busError)) : takes i s (s.part.writeFault a f).settle := by
  have ho : s.part.accessOf .postingUnit = some a := ha
  unfold takes
  rcases hi with ⟨rfl, rfl, hlimit⟩ | ⟨rfl, rfl⟩
  · refine (exec_accessTimeout ..).trans (event_some hr ?_)
    rw [Part.accessTimeout, ho]
    exact if_pos hlimit
  · refine (exec_busErrorResponse ..).trans (event_some hr ?_)
    rw [Part.busErrorResponse, ho]
    rfl

/-- R153: the oldest item of the write list is issued, of either kind. -/
theorem Part.issueNext_completion {p : Part} (hp : p.isPosting = true) (hf : p.posting.fault = none)
    (hm : p.monitor.posting = none) {n : Fin 4} {c : Completion} {rest : List Item}
    (hw : p.posting.writeList = .completion n c :: rest) : p.issueNext = p.issueCompletion n c := by
  rw [Part.issueNext, if_pos (by simp [hp, hf, hm])]
  simp only [hw]

theorem Part.issueNext_notice {p : Part} (hp : p.isPosting = true) (hf : p.posting.fault = none)
    (hm : p.monitor.posting = none) {n : Notice} {rest : List Item} (hw : p.posting.writeList = .notice n :: rest) :
    p.issueNext = p.issueNotice n := by
  rw [Part.issueNext, if_pos (by simp [hp, hf, hm])]
  simp only [hw]

/-- Settles O13: a posting fault's write is over at the monitor, and at the event's end the engine enters FATAL. -/
theorem postingFaultIsFatal : Obligations.PostingFaultIsFatal := by
  refine ⟨fun s a i f hr ha habandoned hi => ⟨_, takes_writeFault hr ha hi, ?_⟩, fun p hp hf hm => ⟨?_, ?_⟩,
    fun p reason ring h => Part.fatalOf_settle h⟩
  · have hfault : f = .timeout ∨ f = .busError := hi.imp (fun h => h.2.1) And.right
    have h := Part.fatalOf_writeFault habandoned a f
    unfold Part.writtenRing at h
    generalize (s.part.writeFault a f).settle = q at h ⊢
    generalize a.purpose = purpose at h ⊢
    rcases hfault with rfl | rfl <;> cases purpose <;> exact h
  · intro n c rest hw ht
    rw [Part.issueNext_completion hp hf hm hw]
    exact Part.issueCompletion_refused ht c
  · intro n rest hw ht
    rw [Part.issueNext_notice hp hf hm hw]
    exact Part.issueNotice_refused ht n

end Sys2Proof.Machine
end

section
/-!
What an accepted HALT leaves (R189): the parked commands and the list command, taken queue by queue, and the end of its event.
-/

namespace Sys2Proof.Machine

namespace Part

variable {W : Fin 4 → Prop} {p p' p'' : Part} {q : Fin 8}

/-! ### What parts 2 and 3 of a HALT keep -/

/-- The blocks that completing the parked commands and the list command leaves alone. -/
structure HaltKeeps (p p' : Part) : Prop where
  engine : p'.engine = p.engine
  clock : p'.clock = p.clock
  output : p'.output = p.output
  domains : p'.domains = p.domains
  inputs : p'.inputs = p.inputs
  path : p'.command.path = p.command.path

theorem HaltKeeps.refl (p : Part) : HaltKeeps p p := ⟨rfl, rfl, rfl, rfl, rfl, rfl⟩

theorem HaltKeeps.trans (h : HaltKeeps p p') (h' : HaltKeeps p' p'') : HaltKeeps p p'' :=
  ⟨h'.engine.trans h.engine, h'.clock.trans h.clock, h'.output.trans h.output, h'.domains.trans h.domains,
    h'.inputs.trans h.inputs, h'.path.trans h.path⟩

theorem HaltKeeps.now (h : HaltKeeps p p') : p'.now = p.now := congrArg Clock.time h.clock

theorem haltKeeps_complete (p : Part) (q : Fin 8) (h : Header) (st : Status) (aux : Nat) :
    HaltKeeps p (p.complete q h st aux) := by
  constructor <;> simp [complete]

theorem haltKeeps_modQueue (p : Part) (q : Fin 8) (f : QueueContext → QueueContext) : HaltKeeps p (p.modQueue q f) :=
  ⟨rfl, rfl, rfl, rfl, rfl, rfl⟩

theorem haltKeeps_haltQueue (p : Part) (q : Fin 8) : HaltKeeps p (p.haltQueue q) := by
  unfold haltQueue
  split
  · exact ((haltKeeps_modQueue ..).trans (haltKeeps_complete ..)).trans (haltKeeps_modQueue ..)
  · exact .refl p

theorem haltKeeps_haltList (p : Part) : HaltKeeps p p.haltList := by
  unfold haltList
  split
  · exact haltKeeps_complete ..
  · exact .refl p

theorem queue_complete (p : Part) (q q' : Fin 8) (h : Header) (st : Status) (aux : Nat) :
    (p.complete q h st aux).queue q' = p.queue q' :=
  congrArg (fun u : CommandUnit => u.queues[q']) (handCompletion_command ..)

/-! ### The items -/

/-- The HALTED completion of a command of queue q. -/
def haltedItem (p : Part) (q : Fin 8) (h : Header) : Item :=
  .completion (p.queue q).cq { queue := q, id := h.id, status := .halted, aux := 0, drops := 0, value := p.now }

/-- The HALTED completion of the command parked in queue q, if one is. -/
def parkedItem (p : Part) (q : Fin 8) : Option Item :=
  match (p.queue q).state, (p.queue q).hold with
  | .holding, some held => some (p.haltedItem q held.header)
  | _, _ => none

/-- The HALTED completion of the SCHEDULE LIST whose list is being read, if one is. -/
def listItems (p : Part) : List Item :=
  match p.command.path with
  | .list q h false => [p.haltedItem q h]
  | _ => []

theorem haltedItems_eq (p : Part) : p.haltedItems = (List.finRange 8).filterMap p.parkedItem ++ p.listItems := rfl

theorem haltedItem_congr (hq : (p'.queue q).cq = (p.queue q).cq) (hnow : p'.now = p.now) (h : Header) :
    p'.haltedItem q h = p.haltedItem q h := by
  rw [haltedItem, hq, hnow, haltedItem]

theorem parkedItem_congr (hq : p'.queue q = p.queue q) (hnow : p'.now = p.now) : p'.parkedItem q = p.parkedItem q := by
  have hitem := haltedItem_congr (q := q) (congrArg QueueContext.cq hq) hnow
  unfold parkedItem
  rw [hq]
  simp only [hitem]

theorem listItems_congr (hq : ∀ q, (p'.queue q).cq = (p.queue q).cq) (h : HaltKeeps p p') :
    p'.listItems = p.listItems := by
  unfold listItems
  rw [h.path]
  simp only [haltedItem_congr (hq _) h.now]

/-- Queue q holds a parked command. -/
abbrev IsParked (p : Part) (q : Fin 8) : Prop := (p.queue q).state = .holding ∧ (p.queue q).hold ≠ none

/-- The context of a queue after part 2 of a HALT: its parked command has left the hold slot. -/
def unparked (x : QueueContext) : QueueContext :=
  if x.state = .holding ∧ x.hold ≠ none then { x with state := .active, hold := none } else x

theorem unparked_cq (x : QueueContext) : (unparked x).cq = x.cq := by
  unfold unparked
  split <;> rfl

theorem parkedItem_parked {held : Held} (hs : (p.queue q).state = .holding) (hh : (p.queue q).hold = some held) :
    p.parkedItem q = some (p.haltedItem q held.header) := by
  rw [parkedItem, hs, hh]

theorem parkedItem_none (h : ¬p.IsParked q) : p.parkedItem q = none := by
  unfold parkedItem
  split
  · exact absurd ⟨‹_›, Option.ne_none_iff_exists'.2 ⟨_, ‹_›⟩⟩ h
  · rfl

/-! ### One queue, and the queues in turn -/

/-- R189 part 2: the parked command of a queue. -/
theorem haltQueue_parked {held : Held} (hs : (p.queue q).state = .holding) (hh : (p.queue q).hold = some held) :
    p.haltQueue q = (p.completeHeld q held .halted 0).modQueue q fun x => { x with state := .active } := by
  rw [haltQueue, hs, hh]

/-- A queue with no parked command is passed over. -/
theorem haltQueue_none (h : ¬p.IsParked q) : p.haltQueue q = p := by
  unfold haltQueue
  split
  · exact absurd ⟨‹_›, Option.ne_none_iff_exists'.2 ⟨_, ‹_›⟩⟩ h
  · rfl

theorem queue_haltQueue (p : Part) (q q' : Fin 8) :
    (p.haltQueue q).queue q' = if q' = q then unparked (p.queue q) else p.queue q' := by
  by_cases h : p.IsParked q
  · obtain ⟨held, hheld⟩ := Option.ne_none_iff_exists'.1 h.2
    rw [haltQueue_parked h.1 hheld, completeHeld, queue_modQueue, queue_complete, queue_complete, queue_modQueue,
      queue_modQueue, unparked, if_pos h, if_pos rfl]
    by_cases hq : q' = q
    · rw [if_pos hq, if_pos hq]
    · rw [if_neg hq, if_neg hq, if_neg hq]
  · rw [haltQueue_none h, unparked, if_neg h]
    split
    · rename_i hq
      rw [hq]
    · rfl

theorem cq_haltQueue (p : Part) (q q' : Fin 8) : ((p.haltQueue q).queue q').cq = (p.queue q').cq := by
  rw [queue_haltQueue]
  split
  · rename_i hq
    rw [unparked_cq, hq]
  · rfl

theorem writeList_complete (hp : p.isPosting = true) (h : Header) :
    (p.complete q h .halted 0).posting.writeList = p.posting.writeList ++ [p.haltedItem q h] :=
  handCompletion_writeList hp _ _

theorem writeList_haltQueue (hp : p.isPosting = true) (q : Fin 8) :
    (p.haltQueue q).posting.writeList = p.posting.writeList ++ (p.parkedItem q).toList := by
  by_cases h : p.IsParked q
  · obtain ⟨held, hheld⟩ := Option.ne_none_iff_exists'.1 h.2
    have hitem : (p.modQueue q fun x => { x with hold := none }).haltedItem q held.header = p.haltedItem q held.header :=
      haltedItem_congr (p := p) (p' := p.modQueue q fun x => { x with hold := none })
        (by rw [queue_modQueue, if_pos rfl]) rfl held.header
    rw [haltQueue_parked h.1 hheld, parkedItem_parked h.1 hheld, ← hitem]
    exact writeList_complete (p := p.modQueue q fun x => { x with hold := none }) hp held.header
  · rw [haltQueue_none h, parkedItem_none h]
    exact (List.append_nil _).symm

/-- Whether W holds of every completion queue that a queue's command may yet be completed to. -/
def Owing (W : Fin 4 → Prop) (p : Part) : Prop :=
  ∀ q, (p.queue q).state ≠ .disabled ∨ pathQueue p.command.path = some q → W (p.queue q).cq

theorem Owing.haltQueue (h : Owing W p) (q : Fin 8) : Owing W (p.haltQueue q) := by
  intro q' hq'
  rw [cq_haltQueue]
  rw [(haltKeeps_haltQueue p q).path] at hq'
  refine h q' (hq'.imp_left fun hs hd => hs ?_)
  rw [queue_haltQueue]
  split
  · rename_i hq
    subst hq
    rw [unparked, if_neg fun h => by rw [hd] at h; cases h.1]
    exact hd
  · exact hd

theorem Calm.haltQueue (hc : Calm W p) (hW : Owing W p) (q : Fin 8) : Calm W (p.haltQueue q) := by
  by_cases h : p.IsParked q
  · obtain ⟨held, hheld⟩ := Option.ne_none_iff_exists'.1 h.2
    have hq : W ((p.modQueue q fun x => { x with hold := none }).queue q).cq := by
      rw [queue_modQueue, if_pos rfl]
      exact hW q (.inl (by rw [h.1]; decide))
    have hm : Calm W (p.modQueue q fun x => { x with hold := none }) := hc.congr rfl rfl rfl rfl
    rw [haltQueue_parked h.1 hheld, completeHeld]
    exact (hm.complete hq held.header .halted 0).congr rfl rfl rfl rfl
  · rw [haltQueue_none h]
    exact hc

theorem haltKeeps_haltQueues (l : List (Fin 8)) (p : Part) : HaltKeeps p (l.foldl haltQueue p) := by
  induction l generalizing p with
  | nil => exact .refl p
  | cons q l ih => exact (haltKeeps_haltQueue p q).trans (ih _)

theorem queue_haltQueues {l : List (Fin 8)} (hl : l.Nodup) (p : Part) (q : Fin 8) :
    (l.foldl haltQueue p).queue q = if q ∈ l then unparked (p.queue q) else p.queue q := by
  induction l generalizing p with
  | nil => rfl
  | cons x l ih =>
    obtain ⟨hx, hl⟩ := List.nodup_cons.1 hl
    rw [List.foldl_cons, ih hl, queue_haltQueue]
    by_cases hq : q = x
    · subst hq
      simp [hx]
    · simp [hq]

/-- R189 part 2: the HALTED completions join the write list in the order of the queues. -/
theorem writeList_haltQueues {l : List (Fin 8)} (hl : l.Nodup) (hp : p.isPosting = true) :
    (l.foldl haltQueue p).posting.writeList = p.posting.writeList ++ l.filterMap p.parkedItem := by
  induction l generalizing p with
  | nil => exact (List.append_nil _).symm
  | cons x l ih =>
    obtain ⟨hx, hl⟩ := List.nodup_cons.1 hl
    have hk := haltKeeps_haltQueue p x
    have hrest : l.filterMap (p.haltQueue x).parkedItem = l.filterMap p.parkedItem := by
      refine List.filterMap_congr fun q hq => parkedItem_congr ?_ hk.now
      rw [queue_haltQueue, if_neg (ne_of_mem_of_not_mem hq hx)]
    rw [List.foldl_cons, ih hl ((isPosting_of_engine hk.engine).trans hp), hrest, writeList_haltQueue hp, List.append_assoc,
      List.filterMap_cons]
    cases p.parkedItem x <;> rfl

theorem Calm.haltQueues (l : List (Fin 8)) (hc : Calm W p) (hW : Owing W p) :
    Calm W (l.foldl Part.haltQueue p) ∧ Owing W (l.foldl Part.haltQueue p) := by
  induction l generalizing p with
  | nil => exact ⟨hc, hW⟩
  | cons q l ih => exact ih (hc.haltQueue hW q) (hW.haltQueue q)

/-! ### The list command -/

/-- A SCHEDULE LIST whose list is being read, live, is completed HALTED (R189 part 3). -/
theorem haltList_list {h : Header} (hpath : p.command.path = .list q h false) :
    p.haltList = p.complete q h .halted 0 ∧ p.listItems = [p.haltedItem q h] := by
  rw [haltList, listItems, hpath]
  exact ⟨rfl, rfl⟩

theorem haltList_none (hpath : ∀ q h, p.command.path ≠ .list q h false) : p.haltList = p ∧ p.listItems = [] := by
  unfold haltList listItems
  cases hx : p.command.path with
  | free => exact ⟨rfl, rfl⟩
  | fetch q d => exact ⟨rfl, rfl⟩
  | list q h d =>
    cases d with
    | false => exact absurd hx (hpath q h)
    | true => exact ⟨rfl, rfl⟩

theorem list_or_not (p : Part) :
    (∃ q h, p.command.path = .list q h false) ∨ ∀ q h, p.command.path ≠ .list q h false := by
  by_cases hx : ∃ q h, p.command.path = .list q h false
  · exact .inl hx
  · exact .inr fun q h e => hx ⟨q, h, e⟩

theorem queue_haltList (p : Part) (q : Fin 8) : p.haltList.queue q = p.queue q := by
  rcases p.list_or_not with ⟨r, h, hpath⟩ | hpath
  · rw [(haltList_list hpath).1, queue_complete]
  · rw [(haltList_none hpath).1]

/-- R189 part 3: the SCHEDULE LIST whose list is being read. -/
theorem writeList_haltList (hp : p.isPosting = true) :
    p.haltList.posting.writeList = p.posting.writeList ++ p.listItems := by
  rcases p.list_or_not with ⟨r, h, hpath⟩ | hpath
  · rw [(haltList_list hpath).1, (haltList_list hpath).2, writeList_complete hp]
  · rw [(haltList_none hpath).1, (haltList_none hpath).2, List.append_nil]

theorem Calm.haltList (hc : Calm W p) (hW : Owing W p) : Calm W p.haltList := by
  rcases p.list_or_not with ⟨r, h, hpath⟩ | hpath
  · rw [(haltList_list hpath).1]
    exact hc.complete (hW _ (.inr (by rw [hpath]; rfl))) _ _ _
  · rw [(haltList_none hpath).1]
    exact hc

/-! ### The first three parts of a HALT -/

/-- The engine record of a HALT, with the engine HALTING. -/
def haltingEngine (e : Engine) : Engine := { e with state := .halting, lastRefused := .none }

theorem halting_eq (p : Part) :
    p.halting = ((List.finRange 8).foldl haltQueue (p.modEngine haltingEngine)).haltList.discardRead := rfl

theorem haltKeeps_parts (p : Part) :
    HaltKeeps (p.modEngine haltingEngine) ((List.finRange 8).foldl haltQueue (p.modEngine haltingEngine)).haltList :=
  (haltKeeps_haltQueues ..).trans (haltKeeps_haltList _)

theorem queue_discardRead (p : Part) (q : Fin 8) : p.discardRead.queue q = p.queue q := rfl

theorem queue_halting (p : Part) (q : Fin 8) : p.halting.queue q = unparked (p.queue q) := by
  rw [halting_eq, queue_discardRead, queue_haltList, queue_haltQueues (List.nodup_finRange 8),
    if_pos (List.mem_finRange q)]
  rfl

/-- R189 parts 2 and 3: the completions handed over. -/
theorem writeList_parts (hp : p.isPosting = true) : ((List.finRange 8).foldl haltQueue p).haltList.posting.writeList =
    p.posting.writeList ++ p.haltedItems := by
  have hk := haltKeeps_haltQueues (List.finRange 8) p
  have hq (q : Fin 8) : (((List.finRange 8).foldl haltQueue p).queue q).cq = (p.queue q).cq := by
    rw [queue_haltQueues (List.nodup_finRange 8), if_pos (List.mem_finRange q), unparked_cq]
  rw [writeList_haltList ((isPosting_of_engine hk.engine).trans hp), listItems_congr hq hk,
    writeList_haltQueues (List.nodup_finRange 8) hp, List.append_assoc, haltedItems_eq]

theorem writeList_halting (p : Part) : p.halting.posting.writeList = p.posting.writeList ++ p.haltedItems := by
  rw [halting_eq, discardRead, setPath_posting, writeList_parts rfl]
  rfl

theorem Calm.discardRead (hc : Calm W p) : Calm W p.discardRead := hc.congr rfl rfl rfl rfl

theorem Calm.halting (hc : Calm W p) (hW : Owing W p) (hr : p.engine.state = .running) : Calm W p.halting := by
  have hm : Calm W (p.modEngine haltingEngine) := by
    refine ⟨hc.fault, hc.entries, .inr (hc.next.resolve_left ?_)⟩
    rw [isPosting_running hr]
    decide
  obtain ⟨hqueues, howing⟩ := hm.haltQueues (List.finRange 8) hW
  rw [halting_eq]
  exact (hqueues.haltList howing).discardRead

/-- The blocks that the first three parts of a HALT leave alone, and the command path with its read discarded. -/
theorem halting_keeps (p : Part) : p.halting.engine = haltingEngine p.engine ∧ p.halting.clock = p.clock ∧
    p.halting.output = p.output ∧ p.halting.domains = p.domains ∧ p.halting.inputs = p.inputs ∧
    p.halting.command.path = discardPath p.command.path := by
  have hk := p.haltKeeps_parts
  rw [halting_eq, discardRead]
  generalize ((List.finRange 8).foldl haltQueue (p.modEngine haltingEngine)).haltList = q at hk
  exact ⟨hk.engine, hk.clock, hk.output, hk.domains, hk.inputs, congrArg discardPath hk.path⟩

/-! ### The rest of a HALT -/

/-- The part of a HALT after its first four parts, with the store emptied, before HALT is offered. -/
def haltDropped (p : Part) : Part := p.halting.dropOn (List.finRange 32) (fun _ => true) .halted

theorem halt_controlOffers (p : Part) : p.halt = p.haltDropped.controlOffers .halt := rfl

theorem haltDropped_keeps (p : Part) : p.haltDropped.clock = p.clock ∧ p.haltDropped.output = p.output ∧
    p.haltDropped.domains = p.domains := by
  obtain ⟨-, hclock, houtput, hdomains, -⟩ := p.halting_keeps
  rw [haltDropped, dropOn_clock, dropOn_output, dropOn_domains]
  exact ⟨hclock, houtput, hdomains⟩

theorem offered_halt (p : Part) : p.offered .halt p.halt := by
  obtain ⟨hclock, -, hdomains⟩ := p.haltDropped_keeps
  rw [halt_controlOffers]
  exact offered_congr hdomains hclock (offered_controlOffers p.haltDropped .halt)

theorem engineForced_halt (p : Part) : p.engineForced p.halt := by
  obtain ⟨-, houtput, hdomains⟩ := p.haltDropped_keeps
  rw [halt_controlOffers]
  exact engineForced_congr hdomains houtput (engineForced_controlOffers p.haltDropped .halt)

/-- R189: what the parts of a HALT leave of the queues and the command path. -/
theorem queue_halt (p : Part) (q : Fin 8) : p.halt.queue q = unparked (p.queue q) := by
  have hm := moves_halt (W := fun _ => True) p
  exact (congrArg (fun u : CommandUnit => u.queues[q]) hm.command).trans (p.queue_halting q)

theorem path_halt (p : Part) : p.halt.command.path = discardPath p.command.path := by
  rw [(moves_halt (W := fun _ => True) p).command]
  obtain ⟨-, -, -, -, -, hpath⟩ := p.halting_keeps
  exact hpath

theorem writeList_halt (p : Part) : (p.posting.writeList ++ p.haltedItems) <+: p.halt.posting.writeList := by
  rw [← writeList_halting]
  exact (moves_halt (W := fun _ => True) p).writeList

theorem engine_halt (p : Part) : p.halt.engine = haltingEngine p.engine :=
  (moves_halt (W := fun _ => True) p).engine.trans p.halting_keeps.1

theorem clock_halt (p : Part) : p.halt.clock = p.clock := by
  obtain ⟨-, hclock, -⟩ := p.halting_keeps
  exact (moves_halt (W := fun _ => True) p).clock.trans hclock

theorem inputs_halt (p : Part) : p.halt.inputs = p.inputs := by
  obtain ⟨-, -, -, -, hinputs, -⟩ := p.halting_keeps
  exact (moves_halt (W := fun _ => True) p).inputs.trans hinputs

/-- The end of a HALT's event meets no posting fault, and R190 alone remains. -/
theorem settle_halt (hw : p.writesAllowed = true) (hr : p.engine.state = .running) : p.halt.settle = p.halt.checkHalted := by
  have hc := ((calm_of_writesAllowed hw).halting p.owes_queue hr).moves (moves_halt p)
  rw [settle, checkFault, hc.fault]

/-! ### The end of the event -/

theorem haltComplete_checkHalted (p : Part) : p.checkHalted.haltComplete = p.haltComplete := by
  unfold checkHalted
  split <;> rfl

theorem writeList_checkHalted (p : Part) : p.checkHalted.posting.writeList = p.posting.writeList := by
  unfold checkHalted
  split <;> rfl

/-- R190: a HALTING engine at the end of an event. -/
theorem engine_checkHalted (h : p.engine.state = .halting) : p.checkHalted.engine =
    { p.engine with state := if p.checkHalted.haltComplete = true then .halted else .halting } := by
  rw [haltComplete_checkHalted]
  unfold checkHalted
  by_cases hc : p.haltComplete = true
  · rw [if_pos ⟨h, hc⟩, if_pos hc]
    rfl
  · rw [if_neg fun hh => hc hh.2, if_neg hc, ← h]

/-- The offer and the taking over do not show in what R190 changes. -/
theorem offered_checkHalted {cause : Cause} (h : p.offered cause p') : p.offered cause p'.checkHalted := by
  intro d
  rw [domain_checkHalted]
  exact h d

theorem engineForced_checkHalted (h : p.engineForced p') : p.engineForced p'.checkHalted := by
  intro c
  rw [channel_checkHalted]
  exact h c

end Part

theorem exec_halt (s : State) : exec .halt s = event (fun p => some (p.controlWrite 2)) s := rfl

/-- An accepted HALT takes the machine to its parts, and to HALTED where they leave nothing to do. -/
theorem halt_takes {s : State} (ha : s.part.awake = true) (hr : s.part.engine.state = .running) :
    takes .halt s s.part.halt.checkHalted := by
  simp only [Part.awake, Bool.and_eq_true, Bool.not_eq_true'] at ha
  have heffect : (fun p => some (Part.controlWrite 2 p)) s.part = some s.part.halt :=
    congrArg some (if_pos hr)
  unfold takes
  rw [exec_halt, event_some ha.1 heffect, Part.settle_halt ha.2 hr]

/-- Settles O7, by the parts of a HALT in order. -/
theorem haltStopsTheEngine : Obligations.HaltStopsTheEngine := by
  intro s ha hr
  refine ⟨_, halt_takes ha hr, ?_, fun c => ?_, ?_, fun q => ?_, ?_, Part.offered_checkHalted s.part.offered_halt,
    Part.engineForced_checkHalted s.part.engineForced_halt, ?_, ?_⟩
  · rw [Part.engine_checkHalted (congrArg Engine.state s.part.engine_halt), s.part.engine_halt]
    rfl
  · rw [Part.timeline_checkHalted]
    exact s.part.timeline_halt c
  · rw [Part.writeList_checkHalted]
    exact s.part.writeList_halt
  · rw [Part.queue, Part.checkHalted_command]
    exact s.part.queue_halt q
  · rw [Part.checkHalted_command, s.part.path_halt]
    exact Part.discardPath_eq _
  · rw [Part.checkHalted_clock]
    exact s.part.clock_halt
  · rw [Part.checkHalted_inputs]
    exact s.part.inputs_halt

end Sys2Proof.Machine
end

section
/-!
The Completion Tracker (R54 to R56): the status a table entry's counts give, and what one resolution report does to a linked entry.
-/

namespace Sys2Proof.Machine

namespace TableEntry

variable {e : TableEntry}

/-! ### The final status -/

theorem status_of_all_executed (h : e.executed = e.total) : e.status = if e.late then .late else .ok := if_pos h

theorem status_of_none_executed (h : e.executed = 0) (ht : 1 ≤ e.total) : e.status = .abandoned := by
  have hne : e.executed ≠ e.total := by omega
  rw [status, if_neg hne, if_pos h]

theorem status_of_some_executed (h : 1 ≤ e.executed) (ht : e.executed < e.total) : e.status = .partially := by
  have h0 : e.executed ≠ 0 := by omega
  rw [status, if_neg ht.ne, if_neg h0]

/-- PARTIAL needs an executed step and a dropped one. -/
theorem status_eq_partially (hle : e.executed ≤ e.total) (h : e.status = .partially) :
    1 ≤ e.executed ∧ e.executed < e.total := by
  rcases hle.eq_or_lt with hall | hlt
  · rw [status_of_all_executed hall] at h
    cases hl : e.late <;> simp [hl] at h
  · rcases Nat.eq_zero_or_pos e.executed with h0 | hpos
    · rw [status_of_none_executed h0 (by omega)] at h
      cases h
    · exact ⟨hpos, hlt⟩

/-! ### One report -/

@[simp] theorem report_late (e : TableEntry) (o : StepOutcome) (t : Nat) : (e.report o t).late = e.late := by
  cases o <;> rfl

@[simp] theorem report_remaining (e : TableEntry) (o : StepOutcome) (t : Nat) :
    (e.report o t).remaining = e.remaining - 1 := by
  cases o <;> rfl

end TableEntry

namespace Part

variable {p : Part} {x : Step} {i : Fin 64} {e : TableEntry}

/-- A report at an entry in use is counted there, and an entry that waits for no more reports is completed and freed. -/
theorem resolve_linked (hx : x.link = some i) (he : p.entry i = some e) (o : StepOutcome) :
    p.resolve o x =
      if e.remaining - 1 = 0 then (p.setEntry i none).handCompletion e.cq (e.report o p.now).completion
      else p.setEntry i (some (e.report o p.now)) := by
  simp only [resolve, hx, he, TableEntry.report_remaining, report_cq]

theorem resolve_last (hx : x.link = some i) (he : p.entry i = some e) (hr : e.remaining = 1) (o : StepOutcome) :
    p.resolve o x = (p.setEntry i none).handCompletion e.cq (e.report o p.now).completion := by
  rw [resolve_linked hx he, if_pos (by omega)]

theorem resolve_not_last (hx : x.link = some i) (he : p.entry i = some e) (hr : 1 < e.remaining) (o : StepOutcome) :
    p.resolve o x = p.setEntry i (some (e.report o p.now)) := by
  rw [resolve_linked hx he, if_neg (by omega)]

end Part

/-- Settles O31: the rows of R55 in order; a command of one step has no count that is PARTIAL's. -/
theorem finalStatusOfADeferredCommand : Obligations.FinalStatusOfADeferredCommand := by
  intro e hle
  refine ⟨fun hall hl => ?_, fun hall hl => ?_, TableEntry.status_of_some_executed, TableEntry.status_of_none_executed,
    fun hone hp => ?_, e.report_late⟩
  · simp [TableEntry.status_of_all_executed hall, hl]
  · simp [TableEntry.status_of_all_executed hall, hl]
  · obtain ⟨hpos, hlt⟩ := TableEntry.status_eq_partially hle hp
    omega

/-- Settles O32: the entry after the report, and whether it was the last one. -/
theorem trackerTakesAReport : Obligations.TrackerTakesAReport := by
  intro p x i e outcome hx he hr executed drops
  have hreport : e.report outcome p.now =
      { e with remaining := e.remaining - 1, executed := executed, drops := drops, lastTime := p.clock.time } := by
    cases outcome <;> rfl
  split
  next hlast =>
    rw [Part.resolve_last hx he hlast, hreport]
    rfl
  next hmore => rw [Part.resolve_not_last hx he (by omega), hreport]

end Sys2Proof.Machine
end

section
/-!
Why no step makes a channel a member of two domains or splits an enabled pair (R66): each change of the part keeps the invariant,
and a hard reset empties every domain.
-/

namespace Sys2Proof.Machine

namespace Part

variable {W : Fin 4 → Prop} {L R : Prop} {p p' : Part}

/-- The invariant reads the members of the domains and which pairs are enabled: it is kept where no domain has other members and
no pair is newly enabled. -/
theorem domainsApart_congr (ha : p.domainsApart) (members : ∀ d, (p'.domain d).members = (p.domain d).members)
    (enabled : ∀ k, (p'.pair k).enabled = true → (p.pair k).enabled = true) : p'.domainsApart := by
  refine ⟨fun d e hne => ?_, fun k d hk => ?_⟩
  · rw [members, members]
    exact ha.1 d e hne
  · rw [members]
    exact ha.2 k d (enabled k hk)

theorem domainsApart_of_empty (h : ∀ d, (p.domain d).members = 0) : p.domainsApart :=
  ⟨fun d e _ => by simp [h], fun k d _ => by simp [h]⟩

/-- No move changes the members of a domain. -/
theorem Move.members (m : Move W p p') (d : Fin 8) : (p'.domain d).members = (p.domain d).members := by
  have same (h : p'.domains = p.domains) : (p'.domain d).members = (p.domain d).members :=
    congrArg (fun v => v[d].members) h
  cases m with
  | completion n c _ => exact same (handCompletion_domains ..)
  | notice n => exact same (handNotice_domains ..)
  | resolve o s => exact same (resolve_domains ..)
  | domain e f hf =>
    rw [domain_modDomain]
    split
    · rename_i he
      rw [hf, he]
    · rfl
  | channel | guarded | expired | timeline | counted => rfl

/-- No move enables or disables a pair. -/
theorem Move.enabled (m : Move W p p') (k : Fin 16) : (p'.pair k).enabled = (p.pair k).enabled := by
  have same (h : p'.output = p.output) : (p'.pair k).enabled = (p.pair k).enabled :=
    congrArg Pair.enabled (pair_of_output h k)
  have hset (k' : Fin 16) (v : PairView) (hv : PairView.Sound (p.pairView k') v) :
      ((p.setPairView k' v).pair k).enabled = (p.pair k).enabled := by
    rw [pair_setPairView]
    split
    · rename_i hk
      rw [hk]
      exact hv.enabled
    · rfl
  cases m with
  | completion n c _ => exact same (handCompletion_output ..)
  | notice n => exact same (handNotice_output ..)
  | resolve o s => exact same (resolve_output ..)
  | guarded k' lo up => exact hset k' _ (PairView.sound_batch ..)
  | expired k' => exact hset k' _ (PairView.sound_expire _)
  | channel | domain | timeline | counted => rfl

/-- R66, for a pair that is configured: where its two channels have the same domain or none, every domain has both or neither. -/
theorem members_of_domainOf_eq (ha : p.domainsApart) {c c' : Fin 32} (h : p.domainOf c = p.domainOf c') (d : Fin 8) :
    (p.domain d).members.getLsbD c.val = (p.domain d).members.getLsbD c'.val := by
  rw [Bool.eq_iff_iff]
  exact ⟨fun hc => members_of_domainOf (h ▸ domainOf_member ha hc), fun hc => members_of_domainOf (h ▸ domainOf_member ha hc)⟩

/-- R66, for a domain that is given the members `m`: no other domain has one of them, and no enabled pair is split by them. -/
theorem domainsApart_members (ha : p.domainsApart) (d : Fin 8) {f : Domain → Domain} {m : BitVec 32}
    (hm : ∀ x, (f x).members = m) (others : ∀ e, e ≠ d → (p.domain e).members &&& m = 0)
    (pairs : ∀ k, (p.pair k).enabled = true → m.getLsbD (channelOf k .lower).val = m.getLsbD (channelOf k .upper).val) :
    (p.modDomain d f).domainsApart := by
  have hd : ((p.modDomain d f).domain d).members = m := by rw [domain_modDomain, if_pos rfl, hm]
  have hother (e : Fin 8) (he : e ≠ d) : (p.modDomain d f).domain e = p.domain e := by rw [domain_modDomain, if_neg he]
  refine ⟨fun a b hne => ?_, fun k e hk => ?_⟩
  · by_cases h : a = d
    · have hb : b ≠ d := fun hb => hne (h.trans hb.symm)
      rw [h, hd, hother b hb, BitVec.and_comm]
      exact others b hb
    · rw [hother a h]
      by_cases hb : b = d
      · rw [hb, hd]
        exact others a h
      · rw [hother b hb]
        exact ha.1 a b hne
  · by_cases h : e = d
    · rw [h, hd]
      exact pairs k hk
    · rw [hother e h]
      exact ha.2 k e hk

theorem Change.domainsApart (m : Change L R p p') (ha : p.domainsApart) : p'.domainsApart := by
  cases m with
  | move m => exact domainsApart_congr ha m.members fun k hk => m.enabled k ▸ hk
  | plain _ pairs _ members _ _ _ =>
    rcases members with h | h
    · exact domainsApart_congr ha h fun k hk => (pairs k).1 ▸ hk
    · exact domainsApart_of_empty h
  | pair k new _ apart =>
    refine ⟨ha.1, fun k' d hk => ?_⟩
    rw [pair_modPair] at hk
    split at hk
    · rename_i he
      rw [he]
      exact members_of_domainOf_eq ha (apart hk) d
    · exact ha.2 k' d hk
  | members d f m hm others pairs => exact domainsApart_members ha d hm others pairs
  | place c s _ _ _ => exact ha

theorem Changes.domainsApart (m : Changes L R p p') (ha : p.domainsApart) : p'.domainsApart :=
  m.keep (fun _ _ m ha => m.domainsApart ha) ha

end Part

/-- Settles O58: every change keeps the domains apart, and a hard reset empties them. -/
theorem domainsStayApart : Obligations.DomainsStayApart := by
  intro s s' ha h
  rcases step_part h with e | e | e | e | ⟨i, p, hp, e⟩ <;> rw [e]
  · exact (Part.changes_backupPeriod (L := True) (R := True) s.part).domainsApart ha
  · exact Part.domainsApart_of_empty fun d => congrArg Domain.members (Part.reset_domain d)
  · exact ha
  · exact ha
  · exact Part.Changes.domainsApart ((effect_changes hp).trans (Part.changes_settle p)) ha

end Sys2Proof.Machine
end

section
/-!
Reading a refusal table row by row, and the fetched commands whose answer is one: what an arrived command that passes the common
checks does is what its owning block does (R139).
-/

namespace Sys2Proof.Machine

theorem findIdx_finRange {n : Nat} {f : Fin n → Bool} {c : Fin n} (h : (List.finRange n).find? f = some c) :
    (List.finRange n).findIdx f = c.val := by
  obtain ⟨hc, i, hi, rfl, hbefore⟩ := List.find?_eq_some_iff_getElem.1 h
  rw [List.findIdx_eq hi |>.2 ⟨hc, fun j hj => by simpa using hbefore j hj⟩]
  simp

theorem findIdx_range {n c : Nat} {f : Nat → Bool} (h : (List.range n).find? f = some c) :
    (List.range n).findIdx f = c := by
  obtain ⟨hc, i, hi, rfl, hbefore⟩ := List.find?_eq_some_iff_getElem.1 h
  rw [List.findIdx_eq hi |>.2 ⟨hc, fun j hj => by simpa using hbefore j hj⟩]
  simp

namespace Part

variable {p : Part} {q : Fin 8}

theorem answered_decide (hd : Header) (P : Prop) [Decidable P] (st : Status) (aux : Nat) (t : List (Bool × Status × Nat))
    (acc : Part) : p.answered q hd ((decide P, st, aux) :: t) acc =
      if P then p.complete q hd st aux else p.answered q hd t acc := by
  rw [answered_cons]
  simp only [decide_eq_true_eq]

/-- A row that names the first element of a list that fails a check. -/
theorem answered_found {α : Type} {l : List α} {f : α → Bool} {c : α} (h : l.find? f = some c) (hd : Header) (st : Status)
    (aux : Nat) (t : List (Bool × Status × Nat)) (acc : Part) :
    p.answered q hd ((l.any f, st, aux) :: t) acc = p.complete q hd st aux := by
  rw [answered_cons, if_pos]
  exact List.any_eq_true.2 ⟨c, List.mem_of_find?_eq_some h, List.find?_some h⟩

theorem answered_not_found {α : Type} {l : List α} {f : α → Bool} (h : l.find? f = none) (hd : Header) (st : Status)
    (aux : Nat) (t : List (Bool × Status × Nat)) (acc : Part) :
    p.answered q hd ((l.any f, st, aux) :: t) acc = p.answered q hd t acc := by
  rw [answered_cons, if_neg]
  rw [List.any_eq_true]
  rintro ⟨x, hx, hfx⟩
  exact List.find?_eq_none.1 h x hx hfx

/-- A command of a class that its queue has the authority for goes to its owning block (R139, R140). -/
theorem process_authorised {cmd : Command} {cls : Fin 4} (hk : authorityClass cmd = some cls)
    (ha : (p.queue q).authority.getLsbD cls.val = true) (hd : Header) : p.process q hd cmd = p.owner q hd cmd := by
  have : p.commonRefusal q cmd = none := by
    unfold commonRefusal
    split
    · cases hk
    · rw [hk]
      exact if_pos ha
  rw [process, this]

theorem authority_taken (p : Part) (q : Fin 8) : ((p.taken q).queue q).authority = (p.queue q).authority := by
  rw [queue_taken, if_pos rfl]

end Part

/-- A command that is ready and is answered from its refusal table takes the machine to that answer, if the accepted command
meets no posting fault. -/
theorem answered_takes {i : Instr} {h : Header} {cmd : Command} {s : State} {q : Fin 8} {t : List (Bool × Status × Nat)}
    {acc : Part} (hi : i.record? = some (h, cmd)) (hr : s.part.ready q = true)
    (hp : (s.part.taken q).process q h cmd = (s.part.taken q).answered q h t acc)
    (hc : Part.Calm (fun n => s.part.owes n = true) acc) (he : acc.engine = (s.part.taken q).engine) :
    takes i s ((s.part.taken q).answered q h t acc) :=
  ready_takes hi hr hp ((Part.ready_calm hr).answered (Part.ready_owes hr) h t hc).fault
    ((congrArg Engine.state (Part.answered_engine h t he)).trans (Part.ready_running hr))

end Sys2Proof.Machine
end

section
/-!
The commands of the Domain Unit that arm, disarm, trip and query a domain (R67, R88 to R91).
-/

namespace Sys2Proof.Machine

namespace Part

variable {p : Part} {q : Fin 8}

/-- R67: the first active source is the lowest number at which the domain selects an active one. -/
theorem firstActiveSource_eq (p : Part) (d : Domain) :
    p.firstActiveSource d = ((List.finRange 17).find? (p.sourceActive d)).map Fin.val := by
  have hinput : p.sourceActive d ∘ Fin.castSucc = fun n : Fin 16 => d.sources.getLsbD n.val && (p.input n).active := by
    funext n
    simp only [Function.comp, sourceActive, Fin.val_castSucc, n.isLt, dif_pos]
    rfl
  have hclock : p.sourceActive d (Fin.last 16) = (d.sources.getLsbD 16 && p.clock.condition) := rfl
  rw [List.finRange_succ_last, List.find?_append, List.find?_map, hinput, List.find?_singleton, hclock]
  unfold firstActiveSource
  cases (List.finRange 16).find? fun n => d.sources.getLsbD n.val && (p.input n).active with
  | some n => rfl
  | none =>
    cases d.sources.getLsbD 16 && p.clock.condition <;> rfl

/-- A refusal for the first active source, as the last row of a table. -/
theorem answered_sourceActive (d : Domain) (hd : Header) (acc : Part) :
    p.answered q hd [((List.finRange 17).any (p.sourceActive d), .sourceActive, (List.finRange 17).findIdx (p.sourceActive d))]
        acc = (match p.firstActiveSource d with
      | some n => p.complete q hd .sourceActive n
      | none => acc) := by
  rw [firstActiveSource_eq]
  cases hf : (List.finRange 17).find? (p.sourceActive d) with
  | none => exact answered_not_found hf ..
  | some n => exact (answered_found hf ..).trans (congrArg (p.complete q hd .sourceActive) (findIdx_finRange hf))

/-- R88. -/
theorem armDomain_eq (p : Part) (q : Fin 8) (hd : Header) (domain : BitVec 8) : p.armDomain q hd domain =
    p.answered q hd
      [ (decide (8 ≤ domain.toNat), .badField, 1),
        (decide ((p.domain (Fin.ofNat 8 domain.toNat)).state ≠ .disarmed), .wrongState, 0),
        (decide ((p.domain (Fin.ofNat 8 domain.toNat)).members = 0), .badField, 2),
        ((List.finRange 17).any (p.sourceActive (p.domain (Fin.ofNat 8 domain.toNat))), .sourceActive,
          (List.finRange 17).findIdx (p.sourceActive (p.domain (Fin.ofNat 8 domain.toNat)))) ]
      ((p.modDomain (Fin.ofNat 8 domain.toNat) fun x => { x with state := .armed, causes := 0 }).complete q hd .ok 0) := by
  rw [answered_decide, answered_decide, answered_decide, answered_sourceActive]
  rfl

/-- R89. -/
theorem disarmDomain_eq (p : Part) (q : Fin 8) (hd : Header) (domain : BitVec 8) : p.disarmDomain q hd domain =
    p.answered q hd
      [ (decide (8 ≤ domain.toNat), .badField, 1),
        (decide ((p.domain (Fin.ofNat 8 domain.toNat)).state = .tripping ∨
          (p.domain (Fin.ofNat 8 domain.toNat)).state = .tripped), .wrongState, 0) ]
      (if (p.domain (Fin.ofNat 8 domain.toNat)).state = .disarmed then p.complete q hd .ok 0
       else (p.modDomain (Fin.ofNat 8 domain.toNat) fun x => { x with state := .disarmed, contentionWaits := false }).complete
         q hd .ok 0) := by
  rw [answered_decide, answered_decide, answered_nil]
  unfold disarmDomain
  dsimp only
  generalize Fin.ofNat 8 domain.toNat = d
  refine ite_congr rfl (fun _ => rfl) fun _ => ?_
  cases (p.domain d).state <;> rfl

/-- Two sets of channels have no channel in common. -/
theorem all_apart_eq (m k : BitVec 32) :
    (List.finRange 32).all (fun c => !(m.getLsbD c.val && k.getLsbD c.val)) = decide (m &&& k = 0) := by
  rw [Bool.eq_iff_iff, List.all_eq_true, decide_eq_true_eq]
  refine ⟨fun h => BitVec.eq_of_getLsbD_eq fun i hi => ?_, fun h c _ => ?_⟩
  · have := h ⟨i, hi⟩ (List.mem_finRange _)
    rw [BitVec.getLsbD_and]
    simpa [imp_iff_not_or] using this
  · rw [← BitVec.getLsbD_and, h]
    simp

/-- R90. -/
theorem tripDomain_eq (p : Part) (q : Fin 8) (hd : Header) (domain : BitVec 8) : p.tripDomain q hd domain =
    p.answered q hd
      [ (decide (8 ≤ domain.toNat), .badField, 1),
        ((List.finRange 32).all fun c => !((p.domain (Fin.ofNat 8 domain.toNat)).members.getLsbD c.val &&
          (p.queue q).mask.getLsbD c.val), .noAuthority, 0),
        (decide ((p.domain (Fin.ofNat 8 domain.toNat)).state = .disarmed), .wrongState, 0) ]
      ((p.offer .software (Fin.ofNat 8 domain.toNat)).completeWith q hd
        (if (p.domain (Fin.ofNat 8 domain.toNat)).state = .armed then 1 else 0)
        ((p.offer .software (Fin.ofNat 8 domain.toNat)).domain (Fin.ofNat 8 domain.toNat)).tripTime) := by
  rw [all_apart_eq, answered_decide, answered_decide, answered_decide, answered_nil]
  rfl

/-- Calm does not depend on the domain records. -/
theorem Calm.modDomain {W : Fin 4 → Prop} (hc : Calm W p) (d : Fin 8) (f : Domain → Domain) : Calm W (p.modDomain d f) :=
  hc.congr rfl rfl rfl rfl

/-- An offer, and the completion of the command that made it, meet no posting fault. -/
theorem Calm.offer_completeWith {W : Fin 4 → Prop} (hc : Calm W p) (hW : W (p.queue q).cq) (cause : Cause) (d : Fin 8)
    (hd : Header) (aux v : Nat) : Calm W ((p.offer cause d).completeWith q hd aux v) := by
  refine (hc.moves (moves_offer p cause d)).completeWith ?_ hd aux v
  rwa [queue, offer_command]

/-- R91. -/
theorem queryDomain_eq (p : Part) (q : Fin 8) (hd : Header) (domain : BitVec 8) : p.queryDomain q hd domain =
    p.answered q hd [(decide (8 ≤ domain.toNat), .badField, 1)]
      (p.completeWith q hd (p.domain (Fin.ofNat 8 domain.toNat)).aux (p.domain (Fin.ofNat 8 domain.toNat)).tripTime) := by
  rw [answered_decide, answered_nil]
  rfl

end Part

/-- Settles O40, by the two tables; a change of a domain record meets no posting fault. -/
theorem armAndDisarm : Obligations.ArmAndDisarm := by
  intro h domain s q hr ha
  have hauth := (congrArg (fun a => a.getLsbD 1) (Part.authority_taken s.part q)).trans ha
  have hc := Part.ready_calm hr
  have hW := Part.ready_owes hr
  refine ⟨answered_takes (cmd := .armDomain domain) rfl hr ?_ ?_ ?_,
    answered_takes (cmd := .disarmDomain domain) rfl hr ?_ ?_ ?_⟩
  · exact (Part.process_authorised (cls := 1) rfl hauth h).trans (Part.armDomain_eq ..)
  · exact (hc.modDomain _ _).complete hW h _ _
  · exact Part.complete_engine ..
  · exact (Part.process_authorised (cls := 1) rfl hauth h).trans (Part.disarmDomain_eq ..)
  · split
    · exact hc.complete hW h _ _
    · exact (hc.modDomain _ _).complete hW h _ _
  · split <;> exact Part.complete_engine ..

/-- Settles O41: the offer is read in the domain records. -/
theorem tripDomainOffersSoftware : Obligations.TripDomainOffersSoftware := by
  intro h domain s q hr T d offered
  refine ⟨answered_takes (cmd := .tripDomain domain) rfl hr (Part.tripDomain_eq ..) ?_ ?_, fun harmed => ?_, fun htripped => ?_⟩
  · exact (Part.ready_calm hr).offer_completeWith (Part.ready_owes hr) ..
  · exact (Part.completeWith_engine ..).trans (Part.offer_engine ..)
  · have ho := Part.onward_offer T .software d d
    rw [if_pos rfl] at ho
    obtain ⟨-, htrip, -⟩ := Part.offerRead_of_onward ho
    obtain ⟨hstate, hcauses, htime⟩ := htrip rfl harmed
    exact ⟨htime, hstate, hcauses⟩
  · have ho : offered = T.addCause d .software := (Part.offer_tripped rfl htripped).trans (if_neg (by simp))
    rw [ho, Part.domain_addCause, if_pos rfl]
    exact ⟨rfl, Part.addCause_output .., Part.addCause_timelines ..⟩

/-- Settles O45: the packed aux is that of the domain record. -/
theorem queryDomainReports : Obligations.QueryDomainReports := by
  intro h domain s q hr T x
  have haux : x.aux = x.causes.toNat + 2 ^ 21 * x.state.code + (if x.disposition = .hold then 2 ^ 23 else 0) +
      2 ^ 24 * (if x.state = .tripping then (x.progress.filter fun y => y.state != .done).length else 0) := by
    unfold Domain.aux Domain.notDone bit
    cases x.disposition <;> rfl
  have ht : takes (.queryDomain h domain) s
      (T.answered q h [(decide (8 ≤ domain.toNat), .badField, 1)] (T.completeWith q h x.aux x.tripTime)) :=
    answered_takes (cmd := .queryDomain domain) rfl hr (Part.queryDomain_eq ..)
      ((Part.ready_calm hr).completeWith (Part.ready_owes hr) ..) (Part.completeWith_engine ..)
  rw [haux] at ht
  unfold DomainState.code at ht
  exact ht

end Sys2Proof.Machine
end

section
/-!
What a release does with one held step (R82, R83): the transitions of a repeating step are counted off one after another, and its
cycles run out before the fuel of the count does.
-/

namespace Sys2Proof.Machine

namespace Repeat

/-- One transition counted off, once the cycles have not run out. -/
def countOff (y : Option (Repeat × Nat)) : Option (Repeat × Nat) := y.bind fun x => x.1.countTransition x.2

/-- The transitions left until the cycles of a repeat part run out: two for each cycle, one of which is over at level B. -/
def transitionsLeft (r : Repeat) : Nat :=
  match r.next with
  | .a => 2 * r.cycles
  | .b => 2 * r.cycles - 1

theorem countTransition_eq (r : Repeat) (t : Nat) : r.countTransition t =
    match r.next with
    | .a => some ({ r with next := .b }, min (t + r.afterA) maxTime)
    | .b => if r.cycles ≤ 1 then none
            else some ({ r with next := .a, cycles := r.cycles - 1 }, min (t + r.afterB) maxTime) := by
  unfold countTransition
  rw [satAdd_eq_min, satAdd_eq_min]
  cases r.next with
  | a => rfl
  | b => exact if_congr Nat.sub_eq_zero_iff_le rfl rfl

/-- A transition that does not end the step leaves one transition less, and a cycle. -/
theorem transitionsLeft_countTransition {r r' : Repeat} {t t' : Nat} (hc : 1 ≤ r.cycles)
    (h : r.countTransition t = some (r', t')) : 1 ≤ r'.cycles ∧ r'.transitionsLeft + 1 = r.transitionsLeft := by
  unfold countTransition at h
  unfold transitionsLeft
  cases hn : r.next with
  | a =>
    rw [hn] at h
    obtain ⟨rfl, -⟩ := Prod.mk.inj (Option.some.inj h)
    exact ⟨hc, by dsimp only; omega⟩
  | b =>
    rw [hn] at h
    dsimp only at h
    split at h
    · cases h
    · obtain ⟨rfl, -⟩ := Prod.mk.inj (Option.some.inj h)
      exact ⟨by dsimp only; omega, by dsimp only; omega⟩

/-- The first `n` transitions leave a repeat part whose time is before the release. -/
def CountedBefore (release : Nat) (r : Repeat) (t n : Nat) : Prop :=
  ∀ m < n, ∃ y, countOff^[m] (some (r, t)) = some y ∧ y.2 < release

theorem CountedBefore.zero (release : Nat) (r : Repeat) (t : Nat) : CountedBefore release r t 0 :=
  fun _ h => absurd h (Nat.not_lt_zero _)

theorem CountedBefore.succ {release : Nat} {r r' : Repeat} {t t' n : Nat} (ht : t < release)
    (h : r.countTransition t = some (r', t')) (hb : CountedBefore release r' t' n) : CountedBefore release r t (n + 1) := by
  intro m hm
  cases m with
  | zero => exact ⟨(r, t), rfl, ht⟩
  | succ m =>
    rw [Function.iterate_succ_apply, show countOff (some (r, t)) = some (r', t') from h]
    exact hb m (Nat.lt_of_succ_lt_succ hm)

/-- R83: with fuel for the transitions left, a held step's cycles run out before the release time, or it is carried to the first
transition at or after it. -/
theorem carry_cases (release : Nat) {fuel : Nat} {r : Repeat} (t : Nat) (hc : 1 ≤ r.cycles) (hf : r.transitionsLeft ≤ fuel) :
    (r.carry release fuel t = none ∧ ∃ n, countOff^[n] (some (r, t)) = none ∧ CountedBefore release r t n) ∨
      ∃ n r' t', countOff^[n] (some (r, t)) = some (r', t') ∧ release ≤ t' ∧ CountedBefore release r t n ∧
        r.carry release fuel t = some (r', t') := by
  induction fuel generalizing r t with
  | zero =>
    unfold transitionsLeft at hf
    cases hn : r.next <;> rw [hn] at hf <;> dsimp only at hf <;> omega
  | succ fuel ih =>
    by_cases ht : release ≤ t
    · exact .inr ⟨0, r, t, rfl, ht, .zero _ _ _, by rw [carry, if_pos ht]⟩
    · cases hstep : r.countTransition t with
      | none =>
        refine .inl ⟨by rw [carry, if_neg ht, hstep], 1, hstep, fun m hm => ?_⟩
        exact ⟨(r, t), by rw [Nat.lt_one_iff.1 hm]; rfl, Nat.lt_of_not_le ht⟩
      | some y =>
        obtain ⟨r', t'⟩ := y
        obtain ⟨hc', hleft⟩ := transitionsLeft_countTransition hc hstep
        have hcarry : r.carry release (fuel + 1) t = r'.carry release fuel t' := by rw [carry, if_neg ht, hstep]
        have hiter (n : Nat) : countOff^[n + 1] (some (r, t)) = countOff^[n] (some (r', t')) := by
          rw [Function.iterate_succ_apply, show countOff (some (r, t)) = some (r', t') from hstep]
        have hbefore {n : Nat} (h : CountedBefore release r' t' n) : CountedBefore release r t (n + 1) :=
          h.succ (Nat.lt_of_not_le ht) hstep
        rcases ih t' hc' (by omega) with ⟨hnone, n, hn, hb⟩ | ⟨n, r'', t'', hn, hr, hb, hsome⟩
        · exact .inl ⟨hcarry.trans hnone, n + 1, (hiter n).trans hn, hbefore hb⟩
        · exact .inr ⟨n + 1, r'', t'', (hiter n).trans hn, hr, hbefore hb, hcarry.trans hsome⟩

end Repeat

namespace Step

theorem releaseFate_kept {x : Step} {r : Nat} (h : r ≤ x.effective) : x.releaseFate r = .kept := if_pos h

theorem releaseFate_single {x : Step} {r : Nat} {action : Action} (h : x.effective < r) (hb : x.body = .single action) :
    x.releaseFate r = .expired := by
  rw [releaseFate, if_neg (Nat.not_le_of_lt h), hb]

theorem releaseFate_repeating {x : Step} {r : Nat} {rep : Repeat} (h : x.effective < r) (hb : x.body = .repeating rep) :
    x.releaseFate r = (rep.carry r (2 * rep.cycles + 1) x.effective).elim .expired fun y =>
      .carried { x with body := .repeating y.1, effective := y.2 } := by
  rw [releaseFate, if_neg (Nat.not_le_of_lt h), hb]
  dsimp only
  cases rep.carry r (2 * rep.cycles + 1) x.effective <;> rfl

end Step

/-- Settles O44: the count of the statement is the model's, one transition after another. -/
theorem heldStepAtARelease : Obligations.HeldStepAtARelease := by
  intro r x
  refine ⟨Step.releaseFate_kept, fun hlt => ⟨fun action => Step.releaseFate_single hlt, ?_⟩⟩
  intro rep hb hc count counted
  have hcount : count = Repeat.countOff := by
    funext y
    cases y with
    | none => rfl
    | some y => exact (Repeat.countTransition_eq y.1 y.2).symm
  have hcounted (n : Nat) : counted n = Repeat.countOff^[n] (some (rep, x.effective)) := by
    rw [← hcount]
    exact (List.foldl_const count _ _).trans (by rw [List.length_replicate])
  have hfuel : rep.transitionsLeft ≤ 2 * rep.cycles + 1 := by
    unfold Repeat.transitionsLeft
    split <;> omega
  simp only [hcounted]
  rw [Step.releaseFate_repeating hlt hb]
  rcases Repeat.carry_cases r x.effective hc hfuel with ⟨hnone, n, hn, hb⟩ | ⟨n, rep', t', hn, hr, hb, hsome⟩
  · exact .inl ⟨by rw [hnone]; rfl, n, hn, hb⟩
  · exact .inr ⟨n, rep', t', hn, hr, hb, by rw [hsome]; rfl⟩

end Sys2Proof.Machine
end

section
/-!
The configuration of a domain and the loading of its safe sequence (R86, R87).
-/

namespace Sys2Proof.Machine

namespace Disposition

theorem ofCode_isNone (b : BitVec 8) : (ofCode b.toNat).isNone = true ↔ b ≠ 1 ∧ b ≠ 2 := by
  rw [Ne, Ne, BitVec.toNat_eq, BitVec.toNat_eq]
  unfold ofCode
  split <;> simp_all

theorem ofCode_getD {b : BitVec 8} (h : ¬(b ≠ 1 ∧ b ≠ 2)) :
    (ofCode b.toNat).getD .discard = if b = 1 then .discard else .hold := by
  by_cases h1 : b = 1
  · rw [h1]
    rfl
  · have h2 : b = 2 := by tauto
    rw [h2]
    rfl

end Disposition

theorem firstRow_find {α : Type} (l : List α) (f : α → Bool) (st : Status) (aux : Nat) (t : List (Bool × Status × Nat)) :
    firstRow ((l.any f, st, aux) :: t) = (l.find? f).elim (firstRow t) fun _ => some (st, aux) := by
  rw [firstRow_cons]
  cases hf : l.find? f with
  | none => 
    rw [if_neg]
    · rfl
    · simpa using hf
  | some c => exact if_pos (List.any_eq_true.2 ⟨c, List.mem_of_find?_eq_some hf, List.find?_some hf⟩)

/-- A check of R87 that names the first entry failing it, by its number from 1. -/
def entryCheck (count : Nat) (fails : Nat → Bool) : Bool × Status × Nat :=
  ((List.range count).any fails, .badField, (List.range count).findIdx fails + 1)

theorem firstRow_entryCheck {test fails : Nat → Bool} {n m : Nat} (hn : n = m) (h : ∀ i < m, test i = !fails i)
    {o : Option (Status × Nat)} {t : List (Bool × Status × Nat)} (ht : o = firstRow t) :
    (match firstBadEntry test n with
      | some i => some (.badField, i)
      | none => o) = firstRow (entryCheck m fails :: t) := by
  subst hn
  have hfind : (List.range n).find? (fun i => !test i) = (List.range n).find? fails :=
    List.find?_congr fun i hi => by rw [h i (List.mem_range.1 hi), Bool.not_not]
  rw [entryCheck, firstRow_find, firstBadEntry, hfind]
  cases hf : (List.range n).find? fails with
  | none => exact ht
  | some i => exact congrArg (fun i => some (Status.badField, i + 1)) (findIdx_range hf).symm

/-- Two sets of channels have a channel in common. -/
theorem any_shared_eq (m k : BitVec 32) :
    ((List.finRange 32).any fun c => m.getLsbD c.val && k.getLsbD c.val) = (k &&& m != 0) := by
  rw [Bool.eq_iff_iff, bne_iff_ne, Ne, BitVec.and_comm, ← decide_eq_true_eq (p := m &&& k = 0), ← Part.all_apart_eq,
    List.any_eq_true, List.all_eq_true]
  simp

namespace Part

variable {p : Part} {q : Fin 8}

theorem answered_eq (hd : Header) (t : List (Bool × Status × Nat)) (acc : Part) :
    p.answered q hd t acc = (firstRow t).elim acc fun x => p.complete q hd x.1 x.2 := by
  unfold answered firstRow
  cases t.find? fun row => row.1 <;> rfl

/-- The refusals of CONFIGURE DOMAIN, in the order of R86. -/
def domainTable (p : Part) (q : Fin 8) (b : DomainBody) : List (Bool × Status × Nat) :=
  let d := Fin.ofNat 8 b.domain.toNat
  let outside (c : Fin 32) : Bool := b.members.getLsbD c.val && !(p.queue q).mask.getLsbD c.val
  [ (decide (8 ≤ b.domain.toNat), .badField, 1),
    (decide ((b.disposition ≠ 1 ∧ b.disposition ≠ 2) ∨ 2 ^ 18 ≤ b.sources.toNat), .badField, 2),
    (decide ((p.domain d).state ≠ .disarmed), .wrongState, 0),
    ((List.finRange 32).any outside, .noAuthority, (List.finRange 32).findIdx outside),
    ((List.finRange 8).any fun e => decide (e ≠ d) && (List.finRange 32).any fun c =>
      b.members.getLsbD c.val && (p.domain e).members.getLsbD c.val, .badField, 3),
    ((List.finRange 16).any fun k => (p.pair k).enabled &&
      b.members.getLsbD (2 * k.val) != b.members.getLsbD (2 * k.val + 1), .badField, 4) ]

theorem configureDomainRefusal_eq (p : Part) (q : Fin 8) (b : DomainBody) :
    p.configureDomainRefusal q b = firstRow (p.domainTable q b) := by
  have hcode : ((Disposition.ofCode b.disposition.toNat).isNone || decide (2 ^ 18 ≤ b.sources.toNat)) = true ↔
      (b.disposition ≠ 1 ∧ b.disposition ≠ 2) ∨ 2 ^ 18 ≤ b.sources.toNat := by
    rw [Bool.or_eq_true, Disposition.ofCode_isNone, decide_eq_true_eq]
  unfold configureDomainRefusal domainTable
  dsimp only
  rw [firstRow_cons, firstRow_cons, firstRow_cons, firstRow_find, firstRow_cons, firstRow_cons]
  simp only [decide_eq_true_eq, any_shared_eq]
  generalize Fin.ofNat 8 b.domain.toNat = d
  refine ite_congr rfl (fun _ => rfl) fun _ => ite_congr (propext hcode) (fun _ => rfl) fun _ =>
    ite_congr rfl (fun _ => rfl) fun _ => ?_
  unfold maskAllows
  cases hf : (List.finRange 32).find? fun c => b.members.getLsbD c.val && !(p.queue q).mask.getLsbD c.val with
  | some c => exact congrArg (fun n => some (Status.noAuthority, n)) (findIdx_finRange hf).symm
  | none =>
    simp only [decide_not]
    rfl

/-- R86. -/
theorem configureDomain_eq (p : Part) (q : Fin 8) (hd : Header) (b : DomainBody) : p.configureDomain q hd b =
    p.answered q hd (p.domainTable q b)
      ((p.modDomain (Fin.ofNat 8 b.domain.toNat) fun x =>
        { x with members := b.members, sources := b.sources.setWidth 18,
                 disposition := if b.disposition = 1 then .discard else .hold, sequence := [], causes := 0,
                 progress := [] }).complete q hd .ok 0) := by
  rw [configureDomain, answered_eq, configureDomainRefusal_eq]
  cases hf : firstRow (p.domainTable q b) with
  | some x => rfl
  | none =>
    have hcode : ¬(b.disposition ≠ 1 ∧ b.disposition ≠ 2) := by
      intro hc
      unfold domainTable at hf
      dsimp only at hf
      rw [firstRow_cons, firstRow_cons, if_pos (decide_eq_true (Or.inl hc))] at hf
      split at hf <;> cases hf
    rw [Disposition.ofCode_getD hcode]
    rfl

/-- The refusals of LOAD SAFE SEQUENCE, in the order of R87. -/
def sequenceTable (p : Part) (b : SequenceBody) : List (Bool × Status × Nat) :=
  let d := Fin.ofNat 8 b.domain.toNat
  let channel (n : Nat) : Nat := (b.entries[n]?.map fun e => e.channel.toNat).getD 0
  let offset (n : Nat) : Nat := (b.entries[n]?.map fun e => e.offset.toNat).getD 0
  [ (decide (8 ≤ b.domain.toNat), .badField, 1),
    (decide ((p.domain d).state ≠ .disarmed), .wrongState, 0),
    (decide (8 < b.entryCount.toNat), .badField, 0),
    entryCheck b.entryCount.toNat fun n => decide (32 ≤ channel n) || !(p.domain d).members.getLsbD (channel n),
    entryCheck b.entryCount.toNat fun n => decide (1048575 < offset n),
    entryCheck b.entryCount.toNat fun n => (List.range n).any fun m => channel m == channel n,
    entryCheck b.entryCount.toNat fun n => decide (0 < n ∧ offset n < offset (n - 1)) ]

/-- Entries the count does not reach are not looked at (R87). -/
theorem loadSafeSequenceRefusal_eq (p : Part) {b : SequenceBody} (hb : b.wellFormed = true) :
    p.loadSafeSequenceRefusal b = firstRow (p.sequenceTable b) := by
  have hlen : b.entries.length = 8 := by simpa [SequenceBody.wellFormed] using hb
  have hget {i : Nat} (hi : i < b.entryCount.toNat) : (b.entries.take b.entryCount.toNat)[i]? = b.entries[i]? :=
    List.getElem?_take_of_lt hi
  unfold loadSafeSequenceRefusal sequenceTable
  dsimp only
  rw [firstRow_cons, firstRow_cons, firstRow_cons]
  simp only [decide_eq_true_eq]
  generalize Fin.ofNat 8 b.domain.toNat = d
  refine ite_congr rfl (fun _ => rfl) fun _ => ite_congr rfl (fun _ => rfl) fun _ =>
    ite_congr rfl (fun _ => rfl) fun hcount => ?_
  have hn : (b.entries.take b.entryCount.toNat).length = b.entryCount.toNat := by
    rw [List.length_take]
    omega
  refine firstRow_entryCheck hn (fun i hi => ?_) (firstRow_entryCheck hn (fun i hi => ?_)
    (firstRow_entryCheck hn (fun i hi => ?_) (firstRow_entryCheck hn (fun i hi => ?_) rfl)))
  · simp only [hget hi, Bool.not_or, Bool.not_not, ← decide_not, Nat.not_le]
  · simp only [hget hi, ← decide_not, Nat.not_lt]
  · rw [hget hi, List.not_any_eq_all_not, Bool.eq_iff_iff, List.all_eq_true, List.all_eq_true]
    refine forall₂_congr fun m hm => ?_
    rw [hget ((List.mem_range.1 hm).trans hi)]
    rfl
  · rw [Bool.eq_iff_iff]
    simp only [hget hi, hget (show i - 1 < b.entryCount.toNat by omega), ← decide_not, Bool.or_eq_true,
      beq_iff_eq, decide_eq_true_eq, not_and, Nat.not_lt]
    omega

/-- R87: the sequence an accepted command loads. -/
theorem loadedSequence_eq {b : SequenceBody} (h : b.entryCount.toNat ≤ b.entries.length) : loadedSequence b =
    (List.range b.entryCount.toNat).map fun n =>
      { channel := Fin.ofNat 32 ((b.entries[n]?.map fun e => e.channel.toNat).getD 0),
        offset := (b.entries[n]?.map fun e => e.offset.toNat).getD 0 } := by
  unfold loadedSequence
  refine List.ext_getElem (by simp [h]) fun i h1 h2 => ?_
  have hi : i < b.entries.length := by
    rw [List.length_map, List.length_range] at h2
    omega
  simp only [List.getElem_map, List.getElem_take, List.getElem_range, List.getElem?_eq_getElem hi, Option.map_some,
    Option.getD_some]

/-- R87. -/
theorem loadSafeSequence_eq (p : Part) (q : Fin 8) (hd : Header) {b : SequenceBody} (hb : b.wellFormed = true) :
    p.loadSafeSequence q hd b = p.answered q hd (p.sequenceTable b)
      ((p.modDomain (Fin.ofNat 8 b.domain.toNat) fun x =>
        { x with sequence := (List.range b.entryCount.toNat).map fun n =>
                   { channel := Fin.ofNat 32 ((b.entries[n]?.map fun e => e.channel.toNat).getD 0),
                     offset := (b.entries[n]?.map fun e => e.offset.toNat).getD 0 } }).complete q hd .ok 0) := by
  rw [loadSafeSequence, answered_eq, loadSafeSequenceRefusal_eq p hb]
  cases hf : firstRow (p.sequenceTable b) with
  | some x => rfl
  | none =>
    have hcount : b.entryCount.toNat ≤ b.entries.length := by
      have hlen : b.entries.length = 8 := by simpa [SequenceBody.wellFormed] using hb
      rw [hlen]
      by_contra hc
      unfold sequenceTable at hf
      dsimp only at hf
      rw [firstRow_cons, firstRow_cons, firstRow_cons, if_pos (c := decide _ = true) (decide_eq_true (Nat.lt_of_not_le hc))] at hf
      split at hf
      · cases hf
      · split at hf <;> cases hf
    rw [loadedSequence_eq hcount]
    rfl

end Part

/-- Settles O39, by the two tables; a change of a domain record meets no posting fault. -/
theorem domainConfiguration : Obligations.DomainConfiguration := by
  have hauth {p : Part} {q : Fin 8} (ha : (p.queue q).authority.getLsbD 1 = true) :
      ((p.taken q).queue q).authority.getLsbD 1 = true := (congrArg (fun a => a.getLsbD 1) (Part.authority_taken p q)).trans ha
  refine ⟨fun h b s q hr ha => ?_, fun h b s q hr hb ha => ?_⟩
  · exact answered_takes (cmd := .configureDomain b) rfl hr
      ((Part.process_authorised (cls := 1) rfl (hauth ha) h).trans (Part.configureDomain_eq ..))
      (((Part.ready_calm hr).modDomain _ _).complete (Part.ready_owes hr) h _ _) (Part.complete_engine ..)
  · exact answered_takes (cmd := .loadSafeSequence b) rfl hr
      ((Part.process_authorised (cls := 1) rfl (hauth ha) h).trans (Part.loadSafeSequence_eq _ _ _ hb))
      (((Part.ready_calm hr).modDomain _ _).complete (Part.ready_owes hr) h _ _) (Part.complete_engine ..)

end Sys2Proof.Machine
end

section
/-!
The events that offer a source to every domain: a sample that begins the active condition of an input (R93 to R97), a primary
stop (R109, R110) and the end of a window (R113 to R116).
-/

namespace Sys2Proof.Machine

/-- An event whose effect meets no posting fault takes the machine to that effect, and on to HALTED if it completes a HALT. -/
theorem takes_of_calm {i : Instr} {f : Part → Option Part} {s : State} {p : Part} {W : Fin 4 → Prop}
    (hi : exec i s = event f s) (hr : s.part.resetAsserted = false) (hp : f s.part = some p) (hc : Part.Calm W p) :
    takes i s p.checkHalted := by
  unfold takes
  rw [hi, event_some hr hp, Part.settle, Part.checkFault, hc.fault]

/-- An event that cannot occur changes nothing (log 2). -/
theorem takes_of_none {i : Instr} {f : Part → Option Part} {s : State} (hi : exec i s = event f s) (hp : f s.part = none) :
    takes i s s.part := by
  unfold takes
  rw [hi, event, hp]
  split <;> rfl

namespace Part

variable {W : Fin 4 → Prop} {p q : Part}

/-- The statements read an offer from the domains and the time alone. -/
theorem offered_congr_now {p' : Part} {cause : Cause} (domains : q.domains = p.domains) (now : q.now = p.now)
    (h : q.offered cause p') : p.offered cause p' := by
  intro d
  have hd := h d
  rw [show q.domain d = p.domain d from congrArg (fun v => v[d]) domains, now] at hd
  exact hd

theorem offered_offerAll (p : Part) (cause : Cause) : p.offered cause (p.offerAll cause) :=
  offered_of_onward (onward_offerAll p cause)

/-! ### Samples -/

theorem moves_activate (p : Part) (n : Fin 16) : Moves W p (p.activate n) := by
  unfold activate
  dsimp only
  split
  · exact (moves_notify _ _).trans (moves_offerAll _ _)
  · exact moves_offerAll _ _

theorem offered_activate (domains : p.domains = q.domains) (now : p.now = q.now) (n : Fin 16) :
    q.offered (.input n) (p.activate n) := by
  unfold activate
  dsimp only
  split
  · exact offered_congr_now ((notify_domains ..).trans domains) ((congrArg Clock.time (notify_clock ..)).trans now)
      (offered_offerAll _ _)
  · exact offered_congr_now domains now (offered_offerAll _ _)

/-- R97: a sample taken when it is due activates the input, or changes its record alone. -/
theorem sampleEvent_due {n : Fin 16} (he : (p.input n).enabled = true) (hs : (p.input n).interval ≤ (p.input n).spacing)
    (pinHigh : Bool) : p.sampleEvent n pinHigh =
      let i' := (p.input n).take ((p.input n).polarity.sample pinHigh)
      some (if i'.active && !(p.input n).active then (p.modInput n fun _ => i').activate n else p.modInput n fun _ => i') := by
  unfold sampleEvent
  dsimp only
  rw [if_pos (by rw [he, decide_eq_true hs]; rfl)]

end Part

theorem Polarity.sample_eq (pol : Polarity) (pinHigh : Bool) :
    pol.sample pinHigh = if pol = .activeHigh then pinHigh else !pinHigh := by
  cases pol <;> rfl

/-- R94, R96: what a sample makes of the record of an input. -/
theorem FaultInput.take_eq (i : FaultInput) (sample : Bool) : i.take sample = { i with
    spacing := 0
    run := if sample = i.filtered ∨ (sample ≠ i.filtered ∧ i.run + 1 = i.filterCount) then 0 else i.run + 1
    filtered := if sample ≠ i.filtered ∧ i.run + 1 = i.filterCount then sample else i.filtered
    latch := i.latch || (decide (sample ≠ i.filtered ∧ i.run + 1 = i.filterCount) && sample && i.mode == .latched) } := by
  unfold take
  by_cases hs : sample = i.filtered
  · simp [hs]
  · by_cases hc : i.run + 1 = i.filterCount
    · simp [hs, hc, Bool.and_comm]
    · simp [hs, hc]

/-- R95, R96: the sample that changes the level to active makes the input active. -/
theorem FaultInput.take_activates {i : FaultInput} (he : i.enabled = true) (hf : i.filtered = false)
    (hr : i.run + 1 = i.filterCount) : i.take true =
      { i with filtered := true, run := 0, spacing := 0, latch := i.latch || i.mode == .latched } ∧
        (i.take true).active = true := by
  have ht : i.take true = { i with filtered := true, run := 0, spacing := 0, latch := i.latch || i.mode == .latched } := by
    rw [take_eq]
    simp [hf, hr]
  refine ⟨ht, ?_⟩
  rw [ht]
  unfold active
  cases hm : i.mode <;> simp [he]

/-- Settles O48: the filter's cases, and the offers of an activation. -/
theorem faultInputSamples : Obligations.FaultInputSamples := by
  refine ⟨?_, ?_⟩
  · intro s n pinHigh hr hset i he hs sample changes i' hquiet
    have htake : i.take (i.polarity.sample pinHigh) = i' := by
      rw [Polarity.sample_eq]
      exact FaultInput.take_eq i sample
    have hevent : s.part.sampleEvent n pinHigh = some (s.part.modInput n fun _ => i') := by
      rw [Part.sampleEvent_due he hs]
      dsimp only
      rw [show (s.part.input n).take ((s.part.input n).polarity.sample pinHigh) = i' from htake, if_neg]
      rw [Bool.and_eq_true, Bool.not_eq_true']
      exact fun h => hquiet ⟨h.2, h.1⟩
    unfold takes
    rw [show exec (.sampleEvent n pinHigh) s = event (Part.sampleEvent n pinHigh) s from rfl, event_some hr hevent,
      Part.settle_settled (p := s.part.modInput n fun _ => i') hset]
    rfl
  · intro s n pinHigh haw i sample he hs hactive hsample hf hrun
    obtain ⟨hr, hw⟩ := (awake_iff _).1 haw
    obtain ⟨htake, hafter⟩ := FaultInput.take_activates he hf hrun
    have hevent : s.part.sampleEvent n pinHigh = some ((s.part.modInput n fun _ => i.take true).activate n) := by
      rw [Part.sampleEvent_due he hs]
      dsimp only
      rw [show (s.part.input n).polarity.sample pinHigh = true from (Polarity.sample_eq ..).trans hsample, if_pos]
      rw [Bool.and_eq_true, Bool.not_eq_true']
      exact ⟨hafter, hactive⟩
    have hm := Part.moves_activate (W := fun _ => True) (s.part.modInput n fun _ => i.take true) n
    have hc := ((Part.calm_of_writesAllowed hw).congr (p' := s.part.modInput n fun _ => i.take true) rfl rfl rfl rfl).moves
      (Part.moves_activate _ n)
    have hinput (m : Fin 16) : ((s.part.modInput n fun _ => i.take true).activate n).checkHalted.input m =
        if m = n then i.take true else s.part.input m := by
      refine Eq.trans ?_ (Part.input_modInput s.part n m fun _ => i.take true)
      rw [Part.input, Part.checkHalted_inputs, hm.inputs]
      rfl
    refine ⟨_, takes_of_calm rfl hr hevent hc, ?_, ?_, ?_, ?_, ?_, ?_⟩
    · rw [hinput, if_pos rfl, htake]
    · rw [hinput, if_pos rfl, hafter]
    · exact Part.offered_checkHalted (Part.offered_activate rfl rfl n)
    · exact fun m hne => (hinput m).trans (if_neg hne)
    · exact (Part.checkHalted_clock _).trans hm.clock
    · exact (Part.checkHalted_command _).trans hm.command

/-! ### Primary stop -/

namespace Part

variable {W : Fin 4 → Prop} {p q : Part}

/-- Calm does not depend on the clock. -/
theorem Calm.modClock (hc : Calm W p) (f : Clock → Clock) : Calm W (p.modClock f) := hc.congr rfl rfl rfl rfl

theorem Calm.notify (hc : Calm W p) (b : NoticeBody) : Calm W (p.notify b) := hc.handNotice _

theorem Calm.switchSource (hc : Calm W p) (source : Source) (reason : SourceReason) (after : SupervisorState) :
    Calm W (p.switchSource source reason after) := (hc.modClock _).notify _

theorem Calm.offerAll (hc : Calm W p) (cause : Cause) : Calm W (p.offerAll cause) := hc.moves (moves_offerAll p cause)

theorem switchSource_keeps (p : Part) (source : Source) (reason : SourceReason) (after : SupervisorState) :
    (p.switchSource source reason after).clock = { p.clock with source := source } ∧
      (p.switchSource source reason after).domains = p.domains ∧ (p.switchSource source reason after).inputs = p.inputs ∧
      (p.switchSource source reason after).command = p.command := by
  simp [switchSource]

theorem notifyFailed_keeps (p : Part) : p.notifyFailed.clock = p.clock ∧ p.notifyFailed.domains = p.domains ∧
    p.notifyFailed.inputs = p.inputs ∧ p.notifyFailed.command = p.command := by
  simp [notifyFailed]

end Part

theorem Supervisor.measures_iff (s : Supervisor) : s.measures = true ↔ s.state = .settling ∨ s.state = .measuring := by
  unfold measures
  rw [Bool.or_eq_true, beq_iff_eq, beq_iff_eq]

/-- R110: the record of a supervisor that a primary stop reaches while it measures. -/
def Supervisor.stopped (s : Supervisor) : Supervisor :=
  { s with state := .failed, verdict := some .primaryStopped, window := none,
           lastCount := (s.window.map SupervisorWindow.count).getD 0 }

namespace Part

variable {W : Fin 4 → Prop} {p q : Part}

theorem supervisorStopped_measuring (h : p.clock.supervisor.measures = true) :
    p.supervisorStopped = ((p.modSupervisor Supervisor.stopped).notifyFailed).offerAll .clock := if_pos h

theorem supervisorStopped_idle (h : p.clock.supervisor.measures ≠ true) : p.supervisorStopped = p := if_neg h

theorem Calm.supervisorStopped (hc : Calm W p) : Calm W p.supervisorStopped := by
  by_cases h : p.clock.supervisor.measures = true
  · rw [supervisorStopped_measuring h]
    exact ((hc.modClock _).notify _).offerAll _
  · rwa [supervisorStopped_idle h]

/-- R110, R112: a supervisor that was measuring is FAILED, and CLOCK is offered; nothing else of the clock changes. -/
theorem supervisorStopped_failed (h : p.clock.supervisor.measures = true) :
    p.supervisorStopped.clock = { p.clock with supervisor := p.clock.supervisor.stopped } ∧
      p.offered .clock p.supervisorStopped ∧ p.supervisorStopped.inputs = p.inputs ∧
      p.supervisorStopped.command = p.command := by
  obtain ⟨hclock, hdomains, hinputs, hcommand⟩ := notifyFailed_keeps (p.modSupervisor Supervisor.stopped)
  rw [supervisorStopped_measuring h]
  refine ⟨(offerAll_clock ..).trans hclock, offered_congr_now hdomains (by rw [now, hclock]; rfl) (offered_offerAll _ _),
    (offerAll_inputs ..).trans hinputs, (offerAll_command ..).trans hcommand⟩

/-- The supervisor's state after a primary stop, which the notice of the switch carries (R107). -/
def afterStop (s : Supervisor) : SupervisorState := if s.measures then .failed else s.state

/-- R108, R109: the switch of a primary stop. -/
def stopSwitched (p : Part) : Part :=
  p.detectorReached.switchSource .backup .primaryStopped (afterStop p.clock.supervisor)

theorem stopSwitched_keeps (p : Part) :
    p.stopSwitched.clock = { p.clock with primaryPresent := false, detectorCount := 32, source := .backup } ∧
      p.stopSwitched.domains = p.domains ∧ p.stopSwitched.inputs = p.inputs ∧ p.stopSwitched.command = p.command :=
  switchSource_keeps p.detectorReached _ _ _

theorem primaryStop_taken (hs : p.clock.source = .primary) (hd : 32 ≤ p.clock.detectorCount) :
    p.primaryStop = some p.stopSwitched.supervisorStopped := if_pos ⟨hs, hd⟩

theorem primaryStop_none (h : p.clock.detectorCount < 32 ∨ p.clock.source = .backup) : p.primaryStop = none := by
  refine if_neg fun ⟨hs, hd⟩ => ?_
  rcases h with h | h
  · exact Nat.not_le_of_lt h hd
  · rw [hs] at h
    cases h

end Part

/-- Settles O52: the switch, and what the stop does to a supervisor that measures. -/
theorem primaryStopSwitchesToBackup : Obligations.PrimaryStopSwitchesToBackup := by
  refine ⟨fun s h => takes_of_none (i := .primaryStop) (f := Part.primaryStop) rfl (Part.primaryStop_none h), ?_⟩
  intro s haw hsource hcount sup
  obtain ⟨hr, hw⟩ := (awake_iff _).1 haw
  obtain ⟨hclock, hdomains, hinputs, hcommand⟩ := Part.stopSwitched_keeps s.part
  have hc : Part.Calm (fun n => s.part.owes n = true) s.part.stopSwitched.supervisorStopped :=
    (((Part.calm_of_writesAllowed hw).modClock _).switchSource _ _ _).supervisorStopped
  have hsup : s.part.stopSwitched.clock.supervisor = sup := by rw [hclock]
  refine ⟨_, takes_of_calm (i := .primaryStop) (f := Part.primaryStop) rfl hr (Part.primaryStop_taken hsource hcount) hc, ?_⟩
  beta_reduce
  rw [Part.checkHalted_clock, Part.checkHalted_inputs, Part.checkHalted_command, Part.checkHalted_domains]
  by_cases hm : sup.measures = true
  · obtain ⟨hc', ho, hi', hcmd'⟩ := Part.supervisorStopped_failed (hsup ▸ hm)
    have hstate := sup.measures_iff.1 hm
    rw [hc', hi', hcmd', hclock]
    refine ⟨rfl, rfl, rfl, rfl, fun h => ?_, fun _ => ⟨?_, ?_⟩, hinputs, hcommand⟩
    · rcases hstate with e | e <;> rw [e] at h <;> simp at h
    · unfold Supervisor.stopped
      cases sup.window <;> rfl
    · exact Part.offered_checkHalted (Part.offered_congr_now hdomains (by rw [Part.now, hclock]; rfl) ho)
  · rw [Part.supervisorStopped_idle (hsup ▸ hm), hclock]
    refine ⟨rfl, rfl, rfl, rfl, fun _ => ⟨rfl, hdomains⟩, fun h => absurd (sup.measures_iff.2 h) hm, hinputs, hcommand⟩

/-! ### The end of a window -/

/-- R115: the bad counter after a verdict. -/
def Supervisor.badAfter (s : Supervisor) (v : Verdict) : Nat := if v = .inRange then 0 else s.bad + 1

namespace Part

variable {W : Fin 4 → Prop} {p q : Part}

/-- R114: in MEASURING the verdict and the count are taken. -/
def judged (p : Part) (v : Verdict) (count : Nat) (next : SupervisorWindow) : Part :=
  p.modSupervisor fun s =>
    { s with verdict := some v, lastCount := count, bad := s.badAfter v, window := some next }

theorem takeVerdict_settling (h : p.clock.supervisor.state = .settling) (v : Verdict) (count : Nat)
    (next : SupervisorWindow) : p.takeVerdict v count next =
      p.modSupervisor fun s => { s with state := .measuring, window := some next } := by
  rw [takeVerdict, h]

/-- R116: the verdict is the fail count-th bad one in a row. -/
def Fails (s : Supervisor) (v : Verdict) : Prop := v ≠ .inRange ∧ s.badAfter v = s.failCount

theorem takeVerdict_fails (h : p.clock.supervisor.state = .measuring) {v : Verdict} (hf : Fails p.clock.supervisor v)
    (count : Nat) (next : SupervisorWindow) : p.takeVerdict v count next = (p.judged v count next).failSupervisor := by
  rw [takeVerdict, h]
  exact if_pos hf

theorem takeVerdict_counted (h : p.clock.supervisor.state = .measuring) {v : Verdict} (hf : ¬Fails p.clock.supervisor v)
    (count : Nat) (next : SupervisorWindow) : p.takeVerdict v count next = p.judged v count next := by
  rw [takeVerdict, h]
  exact if_neg hf

/-- R116: the supervisor FAILED, with its notice, before a switch of the source. -/
def failed (p : Part) : Part := (p.modSupervisor fun s => { s with state := .failed, window := none }).notifyFailed

theorem failed_keeps (p : Part) : p.failed.clock = { p.clock with
      supervisor := { p.clock.supervisor with state := .failed, window := none } } ∧
    p.failed.domains = p.domains ∧ p.failed.inputs = p.inputs :=
  have h := notifyFailed_keeps (p.modSupervisor fun s => { s with state := .failed, window := none })
  ⟨h.1, h.2.1, h.2.2.1⟩

/-- R116: entry to FAILED from the counter switches the source if the fail action says so and PRIMARY is active, and offers CLOCK. -/
theorem failSupervisor_keeps (p : Part) :
    p.failSupervisor.clock = { p.clock with
      supervisor := { p.clock.supervisor with state := .failed, window := none }
      source := if p.clock.supervisor.failAction = some .switchToBackup then .backup else p.clock.source } ∧
    p.offered .clock p.failSupervisor ∧ p.failSupervisor.inputs = p.inputs := by
  obtain ⟨hclock, hdomains, hinputs⟩ := p.failed_keeps
  have hsup : p.failed.clock.supervisor.failAction = p.clock.supervisor.failAction := by rw [hclock]
  have hsource : p.failed.clock.source = p.clock.source := by rw [hclock]
  have heq : p.failSupervisor = Part.offerAll (if p.failed.clock.supervisor.failAction = some .switchToBackup ∧
      p.failed.clock.source = .primary then p.failed.switchSource .backup .supervisorFailed .failed else p.failed) .clock := rfl
  rw [heq, hsup, hsource, offerAll_clock, offerAll_inputs]
  by_cases hswitch : p.clock.supervisor.failAction = some .switchToBackup ∧ p.clock.source = .primary
  · obtain ⟨hclock', hdomains', hinputs', -⟩ := p.failed.switchSource_keeps .backup .supervisorFailed .failed
    rw [if_pos hswitch, hclock', hclock, if_pos hswitch.1]
    exact ⟨rfl, offered_congr_now (hdomains'.trans hdomains) (by rw [now, hclock', hclock]; rfl) (offered_offerAll _ _),
      hinputs'.trans hinputs⟩
  · rw [if_neg hswitch, hclock]
    refine ⟨?_, offered_congr_now hdomains (by rw [now, hclock]; rfl) (offered_offerAll _ _), hinputs⟩
    by_cases ha : p.clock.supervisor.failAction = some .switchToBackup
    · have hb : p.clock.source = .backup := by
        cases hs : p.clock.source with
        | primary => exact absurd ⟨ha, hs⟩ hswitch
        | backup => rfl
      rw [if_pos ha, ← hb]
    · rw [if_neg ha]

theorem Calm.failSupervisor (hc : Calm W p) : Calm W p.failSupervisor := by
  have hf : Calm W p.failed := (hc.modClock _).notify _
  unfold Part.failSupervisor
  dsimp only
  refine Calm.offerAll ?_ _
  split
  · exact hf.switchSource _ _ _
  · exact hf

theorem Calm.takeVerdict (hc : Calm W p) (v : Verdict) (count : Nat) (next : SupervisorWindow) :
    Calm W (p.takeVerdict v count next) := by
  cases hs : p.clock.supervisor.state with
  | settling =>
    rw [takeVerdict_settling hs]
    exact hc.modClock _
  | measuring =>
    have hj : Calm W (p.judged v count next) := hc.congr rfl rfl rfl rfl
    by_cases hf : Fails p.clock.supervisor v
    · rw [takeVerdict_fails hs hf]
      exact hj.failSupervisor
    · rwa [takeVerdict_counted hs hf]
  | disabled | failed =>
    rw [Part.takeVerdict, hs]
    exact hc

/-- The window of a supervisor that measures ends, with this verdict, count and next window: by its closing edge, which is
presented as WINDOW END or as REF EDGE (log 17), or by the reference timer. -/
def Ends (s : Supervisor) (w : SupervisorWindow) (i : Instr) (verdict : Verdict) (count : Nat) (next : SupervisorWindow) : Prop :=
  ((i = .windowEnd ∨ i = .refEdge) ∧ w.isOpen = true ∧ s.windowLength ≤ w.edges + 1 ∧ count = w.ticks ∧
    next = { isOpen := true, edges := 0, ticks := 0, refTimer := 0 } ∧
    verdict = (if s.upperLimit < count then .high else if count < s.lowerLimit then .low else .inRange)) ∨
  (i = .referenceTimeout ∧ s.referenceTimeout ≤ w.refTimer ∧ verdict = .noReference ∧
    count = (if w.isOpen then w.ticks else 0) ∧
    next = { isOpen := false, edges := 0, ticks := 0, refTimer := 0 })

theorem effect_windowEnds {w : SupervisorWindow} {i : Instr} {v : Verdict} {count : Nat} {next : SupervisorWindow}
    (hw : p.clock.supervisor.window = some w) (hm : p.clock.supervisor.measures = true)
    (h : Ends p.clock.supervisor w i v count next) : effect i p = some (p.takeVerdict v count next) := by
  rcases h with ⟨hi, hopen, hedges, rfl, rfl, rfl⟩ | ⟨rfl, ht, rfl, rfl, rfl⟩
  · rcases hi with rfl | rfl
    · show p.windowEnd = _
      rw [windowEnd, hw]
      exact if_pos (by simp [hm, hopen, hedges])
    · show p.refEdge = _
      rw [refEdge, hw]
      simp [hm, hopen, hedges]
      rfl
  · show p.referenceTimeout = _
    rw [referenceTimeout, hw]
    exact if_pos (by simp [hm, ht])

end Part

/-- Settles O53, by the supervisor's state and by whether the verdict is the fail count-th bad one. -/
theorem windowEndGivesItsVerdict : Obligations.WindowEndGivesItsVerdict := by
  intro s w i verdict count next haw sup hwindow hends bad fails
  obtain ⟨hr, hw⟩ := (awake_iff _).1 haw
  have hevent : exec i s = event (effect i) s := by
    rcases hends with ⟨rfl | rfl, -⟩ | ⟨rfl, -⟩ <;> rfl
  have htakes (hm : sup.state = .settling ∨ sup.state = .measuring) :
      takes i s (s.part.takeVerdict verdict count next).checkHalted :=
    takes_of_calm hevent hr (Part.effect_windowEnds hwindow (sup.measures_iff.2 hm) hends)
      ((Part.calm_of_writesAllowed hw).takeVerdict verdict count next)
  refine ⟨fun hs => ⟨_, htakes (.inl hs), ?_⟩, fun hs => ⟨_, htakes (.inr hs), ?_⟩⟩
  · beta_reduce
    rw [Part.checkHalted_clock, Part.checkHalted_domains, Part.checkHalted_output, Part.checkHalted_inputs,
      Part.takeVerdict_settling hs]
    exact ⟨rfl, rfl, rfl, rfl⟩
  · beta_reduce
    rw [Part.checkHalted_clock, Part.checkHalted_domains, Part.checkHalted_inputs]
    by_cases hf : fails
    · obtain ⟨hclock, hoffered, hinputs⟩ := (s.part.judged verdict count next).failSupervisor_keeps
      have hsource : (if fails ∧ sup.failAction = some .switchToBackup then .backup else s.part.clock.source) =
          if sup.failAction = some .switchToBackup then .backup else s.part.clock.source :=
        if_congr (and_iff_right hf) rfl rfl
      rw [Part.takeVerdict_fails hs hf, hclock, hinputs, if_pos hf, if_pos hf, hsource]
      exact ⟨rfl, rfl, rfl, rfl, rfl,
        fun _ => Part.offered_checkHalted (Part.offered_congr_now rfl rfl hoffered), fun h => absurd hf h, rfl⟩
    · rw [Part.takeVerdict_counted hs hf, if_neg hf, if_neg hf, if_neg fun h => hf h.1, ← hs]
      exact ⟨rfl, rfl, rfl, rfl, rfl, fun h => absurd h hf, fun _ => rfl, rfl⟩

end Sys2Proof.Machine
end

section
/-!
What the pair guard does to a channel that has no part in a batch: its partner's part may apply its waiting request (R40).
-/

namespace Sys2Proof.Machine

/-- A channel as it was, or with its waiting request applied. -/
def Channel.Relieved (a b : Channel) : Prop :=
  b = a ∨ ∃ w, a.waiting = some w ∧ b = { a with level := w.level, waiting := none }

namespace PairView

variable {v : PairView} {side : Side}

/-- The part of a batch for one side. -/
def part (lo up : Option Request) : Side → Option Request
  | .lower => lo
  | .upper => up

theorem relieved_applyWaiting (v : PairView) (side : Side) :
    (v.get side).Relieved ((v.applyWaiting side).1.get side) := by
  unfold applyWaiting
  split
  · exact .inl rfl
  · rename_i w hw
    refine .inr ⟨w, hw, ?_⟩
    rw [get_wait, if_pos rfl, get_apply, if_pos rfl]

theorem relieved_goInactive (v : PairView) (t : Nat) (side : Side) (l : Level) :
    (v.get side.other).Relieved ((v.goInactive t side l).1.get side.other) := by
  have ha : (v.apply side l).get side.other = v.get side.other := by rw [get_apply, if_neg (other_ne side)]
  unfold goInactive
  dsimp only
  split
  · split
    · have hw := relieved_applyWaiting { v.apply side l with pair := { v.pair with deadTimeEnd := satAdd t v.pair.deadTime } }
        side.other
      rwa [get_withPair, ha] at hw
    · exact .inl (by rw [get_withPair, ha])
  · exact .inl ha

theorem relieved_settlePart (v : PairView) (t : Nat) (side : Side) (r : Option Request) :
    (v.get side.other).Relieved ((v.settlePart t side r).1.get side.other) := by
  unfold settlePart
  split
  · exact .inl rfl
  · split
    · exact .inl rfl
    · exact relieved_goInactive ..
    · exact .inl rfl

theorem bothActiveGoing_none_left (up : Option Request) (a a' : Option Answer) : bothActiveGoing none up a a' = false := rfl

theorem bothActiveGoing_none_right (lo : Option Request) (a a' : Option Answer) : bothActiveGoing lo none a a' = false := by
  cases lo <;> rfl

theorem relieved_batch_lower (v : PairView) (t : Nat) (up : Option Request) :
    (v.get .lower).Relieved ((v.batch t none up).view.get .lower) := by
  unfold batch
  split
  · rw [guardEnabled_view _ _ _ _ (bothActiveGoing_none_left up)]
    have hsuper : (v.superseded none up).get .lower = v.get .lower := by
      rw [superseded, get_supersede, if_neg (by simp), get_supersede, if_neg (by simp)]
    have hjudge : (v.judgedUpper t none up).1.get .lower = (v.settledUpper t none up).1.get .lower :=
      get_judgePart_other (side := .upper) ..
    rw [hjudge, ← hsuper]
    exact relieved_settlePart (v.superseded none up) t .upper up
  · cases up <;> exact .inl rfl

theorem relieved_batch_upper (v : PairView) (t : Nat) (lo : Option Request) :
    (v.get .upper).Relieved ((v.batch t lo none).view.get .upper) := by
  unfold batch
  split
  · rw [guardEnabled_view _ _ _ _ (bothActiveGoing_none_right lo)]
    have hsuper : (v.superseded lo none).get .upper = v.get .upper := by
      rw [superseded, get_supersede, if_neg (by simp), get_supersede, if_neg (by simp)]
    have hjudge : (v.judgedUpper t lo none).1.get .upper = (v.settledLower t lo none).1.get .upper :=
      get_judgePart_other (side := .lower) ..
    rw [hjudge, ← hsuper]
    exact relieved_settlePart (v.superseded lo none) t .lower lo
  · cases lo <;> exact .inl rfl

/-- R35, R40: a channel that a batch asks nothing of is as it was, or its waiting request is applied. -/
theorem relieved_batch (v : PairView) (t : Nat) {lo up : Option Request} (h : part lo up side = none) :
    (v.get side).Relieved ((v.batch t lo up).view.get side) := by
  cases side with
  | lower =>
    obtain rfl : lo = none := h
    exact relieved_batch_lower v t up
  | upper =>
    obtain rfl : up = none := h
    exact relieved_batch_upper v t lo

end PairView

end Sys2Proof.Machine
end

section
/-!
The drive of a domain to its safe levels (R74, R75): what each of its batches does to a channel, and what the whole drive of a trip
does.
-/

namespace Sys2Proof.Machine

/-- What a batch of the drive of domain d makes of a channel: with no request for it, the channel is as it was or its waiting request
is applied; with one, it is at its safe level or waits for it. -/
inductive Channel.Driven (d : Fin 8) (a b : Channel) : Prop
  | relieved (h : a.Relieved b)
  | requested (entry : Option Nat) (force : b.force = a.force) (safe : b.safe = a.safe)
      (level : (b.level = a.safe ∧ b.waiting = none) ∨ b.waiting = some { level := a.safe, kind := .domainSafe d entry })

/-- A channel whose waiting request, if it has one, was raised by the drive of domain d. -/
structure Channel.SafeBound (d : Fin 8) (reason : Option ForceReason) (l : Level) (ch : Channel) : Prop where
  force : ch.force = reason
  safe : ch.safe = l
  waiting : ∀ w, ch.waiting = some w → ∃ entry, w.kind = .domainSafe d entry ∧ w.level = l

/-- A channel at its safe level, or waiting for it with the request of an entry or of the trip itself. -/
def Channel.AtSafe (d : Fin 8) (entry : Option Nat) (l : Level) (ch : Channel) : Prop :=
  ch.level = l ∨ ch.waiting = some { level := l, kind := .domainSafe d entry }

namespace Channel

variable {d : Fin 8} {a b : Channel} {reason : Option ForceReason} {l : Level} {entry : Option Nat}

theorem Relieved.force (h : a.Relieved b) : b.force = a.force := by
  rcases h with rfl | ⟨w, -, rfl⟩ <;> rfl

theorem Driven.force (h : Driven d a b) : b.force = a.force := by
  cases h with
  | relieved h => exact h.force
  | requested entry force _ _ => exact force

theorem SafeBound.driven (ha : SafeBound d reason l a) (h : Driven d a b) : SafeBound d reason l b := by
  cases h with
  | relieved h =>
    rcases h with rfl | ⟨w, -, rfl⟩
    · exact ha
    · exact ⟨ha.force, ha.safe, fun w hw => by cases hw⟩
  | requested entry hforce hsafe hlevel =>
    refine ⟨hforce.trans ha.force, hsafe.trans ha.safe, fun w hw => ?_⟩
    rcases hlevel with ⟨-, h⟩ | h
    · rw [h] at hw
      cases hw
    · rw [h] at hw
      obtain rfl := Option.some.inj hw
      exact ⟨entry, rfl, ha.safe⟩

theorem AtSafe.relieved (hs : AtSafe d entry l a) (ha : SafeBound d reason l a) (h : a.Relieved b) :
    AtSafe d entry l b := by
  rcases h with rfl | ⟨w, hw, rfl⟩
  · exact hs
  · obtain ⟨_, -, hl⟩ := ha.waiting w hw
    exact .inl hl

end Channel

namespace Part

variable {p : Part} {d : Fin 8} {c : Fin 32}

theorem channel_batch (p : Part) (k : Fin 16) (lo up : Option Request) (c : Fin 32) : (p.batch k lo up).1.channel c =
    if pairOf c = k then ((p.pairView k).batch p.now lo up).view.get (sideOf c) else p.channel c :=
  (channel_of_output (noteReports_output ..) c).trans (channel_setPairView ..)

/-- A batch at another pair leaves a channel as it was, and so does one at its pair that asks nothing of it, but for its waiting
request. -/
theorem relieved_batch (p : Part) (k : Fin 16) {lo up : Option Request}
    (h : pairOf c = k → PairView.part lo up (sideOf c) = none) :
    (p.channel c).Relieved ((p.batch k lo up).1.channel c) := by
  rw [channel_batch]
  split
  · rename_i hk
    have hr := PairView.relieved_batch (p.pairView k) p.now (h hk)
    rwa [get_pairView, ← hk, channelOf_pairOf, hk] at hr
  · exact .inl rfl

theorem requested_batch (p : Part) {lo up : Option Request} {entry : Option Nat}
    (h : PairView.part lo up (sideOf c) = some (p.safeRequest d entry c)) :
    ((p.batch (pairOf c) lo up).1.channel c).force = (p.channel c).force ∧
      ((p.batch (pairOf c) lo up).1.channel c).safe = (p.channel c).safe ∧
      ((((p.batch (pairOf c) lo up).1.channel c).level = (p.channel c).safe ∧
          ((p.batch (pairOf c) lo up).1.channel c).waiting = none) ∨
        ((p.batch (pairOf c) lo up).1.channel c).waiting =
          some { level := (p.channel c).safe, kind := .domainSafe d entry }) := by
  have hr : PairView.Requested _ _ _ _ _ := PairView.requested_batch (p.pairView (pairOf c)) p.now (.domainSafe d entry)
    (p.channel c).safe (lo := lo) (up := up) (side := sideOf c) (by cases hs : sideOf c <;> rw [hs] at h <;> exact h)
  rw [get_pairView, channelOf_pairOf] at hr
  rw [channel_batch, if_pos rfl]
  exact ⟨hr.1, hr.2.1, hr.2.2.imp id fun h => h.2.2⟩

/-- A batch of the drive of domain d: its requests are for safe levels. -/
theorem driven_batch (p : Part) {k : Fin 16} {lo up : Option Request}
    (h : pairOf c = k → ∀ r, PairView.part lo up (sideOf c) = some r → ∃ entry, r = p.safeRequest d entry c) :
    Channel.Driven d (p.channel c) ((p.batch k lo up).1.channel c) := by
  by_cases hk : pairOf c = k
  · subst hk
    cases hr : PairView.part lo up (sideOf c) with
    | none => exact .relieved (relieved_batch p _ fun _ => hr)
    | some r =>
      obtain ⟨entry, rfl⟩ := h rfl r hr
      obtain ⟨hforce, hsafe, hlevel⟩ := requested_batch p hr
      exact .requested entry hforce hsafe hlevel
  · exact .relieved (relieved_batch p k fun he => absurd he hk)

/-! ### The immediate members -/

/-- The requests of R74 for the two channels of pair k. -/
def immediatePart (p : Part) (d : Fin 8) (k : Fin 16) (l : List (Fin 32)) (side : Side) : Option Request :=
  if l.contains (channelOf k side) then some (p.safeRequest d none (channelOf k side)) else none

theorem channel_immediateBatch (p : Part) (d : Fin 8) (k : Fin 16) (l : List (Fin 32)) (c : Fin 32) :
    (p.immediateBatch d k l).channel c = p.channel c ∧ (∀ side, l.contains (channelOf k side) = false) ∨
      (p.immediateBatch d k l).channel c =
        (p.batch k (p.immediatePart d k l .lower) (p.immediatePart d k l .upper)).1.channel c := by
  have hmark (q : Part) (b : Bool) (c' : Fin 32) :
      (if b then q.modDomain d fun x => x.markWaiting c' none else q).channel c = q.channel c := by
    split <;> rfl
  unfold immediateBatch
  dsimp only
  split
  · exact .inr ((hmark ..).trans (hmark ..))
  · rename_i h
    rw [Bool.or_eq_true, not_or, Bool.not_eq_true, Bool.not_eq_true] at h
    exact .inl ⟨rfl, fun side => by cases side <;> [exact h.1; exact h.2]⟩

theorem part_immediate (p : Part) (d : Fin 8) (k : Fin 16) (l : List (Fin 32)) (side : Side) :
    PairView.part (p.immediatePart d k l .lower) (p.immediatePart d k l .upper) side = p.immediatePart d k l side := by
  cases side <;> rfl

theorem driven_immediateBatch (p : Part) (d : Fin 8) (k : Fin 16) (l : List (Fin 32)) (c : Fin 32) :
    Channel.Driven d (p.channel c) ((p.immediateBatch d k l).channel c) := by
  rcases channel_immediateBatch p d k l c with ⟨h, -⟩ | h <;> rw [h]
  · exact .relieved (.inl rfl)
  · refine driven_batch p fun hk r hr => ?_
    rw [part_immediate, immediatePart, ← hk, channelOf_pairOf] at hr
    split at hr
    · exact ⟨none, (Option.some.inj hr).symm⟩
    · cases hr

/-- R74: an immediate member is at its safe level, or waits for it, once the batch of its pair is taken, and stays so. -/
theorem atSafe_immediateBatch {reason : Option ForceReason} {s : Level} {l : List (Fin 32)} (hc : c ∈ l) (p : Part)
    (k : Fin 16) (hb : (p.channel c).SafeBound d reason s) (h : (p.channel c).AtSafe d none s ∨ k = pairOf c) :
    ((p.immediateBatch d k l).channel c).AtSafe d none s := by
  by_cases hk : k = pairOf c
  · subst hk
    have hin : l.contains (channelOf (pairOf c) (sideOf c)) = true := by
      rw [channelOf_pairOf]
      simpa using hc
    rcases channel_immediateBatch p d (pairOf c) l c with ⟨-, hnot⟩ | hch
    · rw [hnot] at hin
      cases hin
    · have hreq := requested_batch (c := c) (d := d) p (entry := none) (by
        rw [part_immediate p d (pairOf c) l, immediatePart, if_pos hin, channelOf_pairOf])
      rw [hch]
      rw [hb.safe] at hreq
      exact hreq.2.2.imp And.left id
  · have hs := h.resolve_right hk
    rcases channel_immediateBatch p d k l c with ⟨hch, -⟩ | hch <;> rw [hch]
    · exact hs
    · exact hs.relieved hb (relieved_batch p k fun e => absurd e.symm hk)

/-! ### The safe-sequence entries -/

/-- R75: the batch of one part that makes an entry. -/
theorem channel_makeEntry (p : Part) (d : Fin 8) (n : Nat) (c c' : Fin 32) : ∃ lo up,
    (p.makeEntry d n c').channel c = (p.batch (pairOf c') lo up).1.channel c ∧
      ∀ side, PairView.part lo up side = if side = sideOf c' then some (p.safeRequest d (some n) c') else none := by
  unfold makeEntry
  dsimp only
  cases sideOf c' with
  | lower => exact ⟨_, _, rfl, fun side => by cases side <;> rfl⟩
  | upper => exact ⟨_, _, rfl, fun side => by cases side <;> rfl⟩

theorem driven_makeEntry (p : Part) (d : Fin 8) (n : Nat) (c c' : Fin 32) :
    Channel.Driven d (p.channel c) ((p.makeEntry d n c').channel c) := by
  obtain ⟨lo, up, hch, hpart⟩ := channel_makeEntry p d n c c'
  rw [hch]
  refine driven_batch p fun hk r hr => ?_
  rw [hpart] at hr
  split at hr
  · rename_i hs
    rw [(eq_iff_pair_side c' c).2 ⟨hk, hs⟩]
    exact ⟨some n, (Option.some.inj hr).symm⟩
  · cases hr

/-- The batch of another channel's entry leaves a channel as it was, but for its waiting request. -/
theorem relieved_makeEntry {c' : Fin 32} (hne : c ≠ c') (p : Part) (d : Fin 8) (n : Nat) :
    (p.channel c).Relieved ((p.makeEntry d n c').channel c) := by
  obtain ⟨lo, up, hch, hpart⟩ := channel_makeEntry p d n c c'
  rw [hch]
  refine relieved_batch p _ fun hk => ?_
  rw [hpart, if_neg fun hs => hne ((eq_iff_pair_side c' c).2 ⟨hk, hs⟩)]

/-- R75: the channel of an entry that is made is at its safe level or waits for it. -/
theorem atSafe_makeEntry (p : Part) (d : Fin 8) (n : Nat) (c : Fin 32) :
    ((p.makeEntry d n c).channel c).AtSafe d (some n) (p.channel c).safe := by
  obtain ⟨lo, up, hch, hpart⟩ := channel_makeEntry p d n c c
  have hreq := requested_batch (d := d) p ((hpart (sideOf c)).trans (if_pos rfl))
  rw [hch]
  exact hreq.2.2.imp And.left id

/-! ### What the whole drive keeps and reaches -/

/-- What every step of a fold keeps, the fold keeps. -/
theorem foldl_preserves {β : Type} {P : Part → Prop} (f : Part → β → Part) (l : List β)
    (h : ∀ p, ∀ b ∈ l, P p → P (f p b)) {p : Part} (hp : P p) : P (l.foldl f p) := by
  induction l generalizing p with
  | nil => exact hp
  | cons b l ih => exact ih (fun p x hx => h p x (List.mem_cons_of_mem _ hx)) (h p b List.mem_cons_self hp)

/-- What one step of a fold reaches and every step keeps, the fold reaches. -/
theorem foldl_reaches {β : Type} {P Q : Part → Prop} (f : Part → β → Part) (k : β) (hP : ∀ p b, P p → P (f p b))
    (hQ : ∀ p b, P p → Q p ∨ b = k → Q (f p b)) (l : List β) {p : Part} (hp : P p) (h : Q p ∨ k ∈ l) : Q (l.foldl f p) := by
  induction l generalizing p with
  | nil => exact h.resolve_right List.not_mem_nil
  | cons b l ih =>
    refine ih (hP p b hp) ?_
    rcases h with h | h
    · exact .inl (hQ p b hp (.inl h))
    · rcases List.mem_cons.1 h with h | h
      · exact .inl (hQ p b hp (.inr h.symm))
      · exact .inr h

/-- R74: after the drive of the immediate members each is at its safe level, or waits for it. -/
theorem atSafe_driveImmediate {reason : Option ForceReason} {s : Level} {l : List (Fin 32)} (hc : c ∈ l)
    (hb : (p.channel c).SafeBound d reason s) : ((p.driveImmediate d l).channel c).AtSafe d none s := by
  unfold driveImmediate
  exact foldl_reaches (P := fun p => (p.channel c).SafeBound d reason s) (Q := fun p => (p.channel c).AtSafe d none s) _
    (pairOf c) (fun p k hp => hp.driven (driven_immediateBatch p d k l c))
    (fun p k hp h => atSafe_immediateBatch hc p k hp h) _ hb (.inr (List.mem_finRange _))

/-- What each batch of a drive keeps of a channel, the drive of the immediate members and of the entries with offset 0 keeps. -/
theorem drive_keeps {P : Channel → Prop} (hP : ∀ a b, Channel.Driven d a b → P a → P b) (l : List (Fin 32))
    (sequence : List SequenceEntry) (hp : P (p.channel c)) :
    P (((p.driveImmediate d l).makeZeroEntries d sequence).channel c) := by
  unfold makeZeroEntries driveImmediate
  refine foldl_preserves (P := fun p => P (p.channel c)) _ _ (fun p x _ hp => ?_)
    (foldl_preserves (P := fun p => P (p.channel c)) _ _ (fun p k _ hp => hP _ _ (driven_immediateBatch p d k l c) hp) hp)
  split
  · exact hP _ _ (driven_makeEntry p d x.1 c x.2.channel) hp
  · exact hp

/-- The entries of other channels keep a channel at its safe level or waiting for it. -/
theorem atSafe_makeZeroEntries {reason : Option ForceReason} {s : Level} {sequence : List SequenceEntry}
    (hne : ∀ e ∈ sequence, e.channel ≠ c) (hb : (p.channel c).SafeBound d reason s) (hs : (p.channel c).AtSafe d none s) :
    ((p.makeZeroEntries d sequence).channel c).AtSafe d none s := by
  unfold makeZeroEntries
  refine And.right (foldl_preserves (P := fun p => (p.channel c).SafeBound d reason s ∧ (p.channel c).AtSafe d none s) _ _
    (fun p x hx hp => ?_) ⟨hb, hs⟩)
  split
  · exact ⟨hp.1.driven (driven_makeEntry ..),
      hp.2.relieved hp.1 (relieved_makeEntry (Ne.symm (hne x.2 (mem_numbered hx))) ..)⟩
  · exact hp

end Part

end Sys2Proof.Machine
end

section
/-!
The trip of a domain (R71 to R76) and a safe-sequence entry that falls due (R75, R76).
-/

namespace Sys2Proof.Machine

namespace Part

variable {p : Part} {d : Fin 8} {c : Fin 32}

/-! ### The domain's state during the drive, and at its end -/

theorem state_modDomain (p : Part) (d e : Fin 8) {f : Domain → Domain} (hf : ∀ x, (f x).state = x.state) :
    ((p.modDomain e f).domain d).state = (p.domain d).state := by
  rw [domain_modDomain]
  split
  · rename_i h
    rw [hf, h]
  · rfl

/-- R42: the reports of applied requests change the progress of domains, not their states. -/
theorem state_batch (p : Part) (k : Fin 16) (lo up : Option Request) (d : Fin 8) :
    ((p.batch k lo up).1.domain d).state = (p.domain d).state := by
  refine foldl_keeps (fun p : Part => (p.domain d).state) _ (fun p r => ?_) _ _
  exact state_modDomain p d r.domain fun _ => rfl

theorem state_immediateBatch (p : Part) (e : Fin 8) (k : Fin 16) (l : List (Fin 32)) (d : Fin 8) :
    ((p.immediateBatch e k l).domain d).state = (p.domain d).state := by
  have hmark (q : Part) (b : Bool) (c : Fin 32) :
      ((if b then q.modDomain e fun x => x.markWaiting c none else q).domain d).state = (q.domain d).state := by
    split
    · exact state_modDomain q d e fun _ => rfl
    · rfl
  unfold immediateBatch
  dsimp only
  split
  · exact ((hmark ..).trans (hmark ..)).trans (state_batch ..)
  · rfl

theorem state_makeEntry (p : Part) (e : Fin 8) (n : Nat) (c : Fin 32) (d : Fin 8) :
    ((p.makeEntry e n c).domain d).state = (p.domain d).state := by
  unfold makeEntry
  dsimp only
  refine (state_modDomain _ d e (f := fun x => x.markWaiting c (some n)) fun _ => rfl).trans ?_
  split <;> exact state_batch ..

theorem allDone_iff (x : Domain) : x.allDone = true ↔ ∀ y ∈ x.progress, y.state = .done := by
  simp [Domain.allDone]

/-- R76: a TRIPPING domain enters TRIPPED exactly if every part is DONE, and its progress stays. -/
theorem domain_checkSafe (h : (p.domain d).state = .tripping) : (p.checkSafe d).domain d =
    { p.domain d with state := if ∀ y ∈ (p.domain d).progress, y.state = .done then .tripped else .tripping } := by
  unfold checkSafe
  dsimp only
  by_cases hd : (p.domain d).allDone = true
  · rw [if_pos ⟨h, hd⟩, domain_notify, domain_modDomain, if_pos rfl, if_pos ((allDone_iff _).1 hd)]
  · rw [if_neg fun hc => hd hc.2, if_neg fun hc => hd ((allDone_iff _).2 hc), ← h]

theorem state_checkSafe (h : (p.domain d).state = .tripping) : ((p.checkSafe d).domain d).state =
    if ∀ y ∈ ((p.checkSafe d).domain d).progress, y.state = .done then .tripped else .tripping := by
  rw [domain_checkSafe h]

theorem channel_checkSafe (p : Part) (d : Fin 8) (c : Fin 32) : (p.checkSafe d).channel c = p.channel c :=
  channel_of_output (checkSafe_output ..) c

/-! ### The trip in its parts -/

/-- R71: the record of the domain entered into TRIPPING, and the members forced. -/
def tripForced (p : Part) (d : Fin 8) (cause : Cause) : Part :=
  (p.modDomain d fun x => x.trip cause p.now).forceMembers (p.domain d).memberList

/-- R72, R73: the steps of the members discarded or held. -/
def tripHeld (p : Part) (d : Fin 8) (cause : Cause) : Part :=
  if (p.domain d).disposition = .discard
  then (p.tripForced d cause).dropOn (p.domain d).memberList (fun _ => true) .discarded else p.tripForced d cause

/-- R74, R75: the immediate members and the entries with offset 0 driven. -/
def tripDriven (p : Part) (d : Fin 8) (cause : Cause) : Part :=
  ((p.tripHeld d cause).driveImmediate d (p.domain d).immediateList).makeZeroEntries d (p.domain d).sequence

theorem trip_eq (p : Part) (d : Fin 8) (cause : Cause) :
    ∃ b, p.trip d cause = ((p.tripDriven d cause).notify b).checkSafe d := ⟨_, rfl⟩

theorem channel_forceMembers (l : List (Fin 32)) (p : Part) (c : Fin 32) : (p.forceMembers l).channel c =
    if c ∈ l then { p.channel c with force := some .domain, waiting := none } else p.channel c := by
  unfold forceMembers
  induction l generalizing p with
  | nil => rfl
  | cons x l ih =>
    rw [List.foldl_cons, ih, channel_modChannel, forceChannel, channel_modChannel, channel_modChannel]
    by_cases hx : c = x
    · subst hx
      simp
    · simp [hx]

/-- R71: the members are forced, with nothing waiting; the steps' fate changes no channel. -/
theorem channel_tripHeld (p : Part) (d : Fin 8) (cause : Cause) (c : Fin 32) : (p.tripHeld d cause).channel c =
    if (p.domain d).members.getLsbD c.val = true then { p.channel c with force := some .domain, waiting := none }
    else p.channel c := by
  have hforced : (p.tripForced d cause).channel c = if (p.domain d).members.getLsbD c.val = true then
      { p.channel c with force := some .domain, waiting := none } else p.channel c :=
    (channel_forceMembers ..).trans (if_congr (mem_memberList ..) rfl rfl)
  unfold tripHeld
  split
  · exact (channel_of_output (dropOn_output ..) c).trans hforced
  · exact hforced

theorem channel_trip (p : Part) (d : Fin 8) (cause : Cause) (c : Fin 32) :
    (p.trip d cause).channel c = (p.tripDriven d cause).channel c := by
  obtain ⟨b, hb⟩ := p.trip_eq d cause
  rw [hb, channel_checkSafe, channel_notify]

/-- R71, R74, R75: a trip leaves its members forced, and nothing waiting on them but its own requests. -/
theorem safeBound_trip (hc : (p.domain d).members.getLsbD c.val = true) (cause : Cause) :
    ((p.trip d cause).channel c).SafeBound d (some .domain) (p.channel c).safe := by
  rw [channel_trip]
  refine drive_keeps (P := fun ch => ch.SafeBound d (some .domain) (p.channel c).safe) (fun a b h ha => ha.driven h) _ _ ?_
  rw [channel_tripHeld, if_pos hc]
  exact ⟨rfl, rfl, fun w hw => by cases hw⟩

/-- R71: a trip forces no other channel. -/
theorem force_trip (hc : (p.domain d).members.getLsbD c.val = false) (cause : Cause) :
    ((p.trip d cause).channel c).force = (p.channel c).force := by
  rw [channel_trip]
  refine drive_keeps (P := fun ch => ch.force = (p.channel c).force) (fun a b h ha => h.force.trans ha) _ _ ?_
  rw [channel_tripHeld, if_neg (by rw [hc]; exact Bool.false_ne_true)]

/-- R74: an immediate member is at its safe level, or waits for it. -/
theorem atSafe_trip (hc : (p.domain d).members.getLsbD c.val = true) (hs : ∀ e ∈ (p.domain d).sequence, e.channel ≠ c)
    (cause : Cause) : ((p.trip d cause).channel c).AtSafe d none (p.channel c).safe := by
  have hin : c ∈ (p.domain d).immediateList := by
    refine List.mem_filter.2 ⟨(mem_memberList ..).2 hc, ?_⟩
    simpa [Domain.isSequenced] using hs
  have hb : ((p.tripHeld d cause).channel c).SafeBound d (some .domain) (p.channel c).safe := by
    rw [channel_tripHeld, if_pos hc]
    exact ⟨rfl, rfl, fun w hw => by cases hw⟩
  have hb' : (((p.tripHeld d cause).driveImmediate d (p.domain d).immediateList).channel c).SafeBound d (some .domain)
      (p.channel c).safe :=
    drive_keeps (P := fun ch => ch.SafeBound d (some .domain) (p.channel c).safe) (fun a b h ha => ha.driven h) _ [] hb
  rw [channel_trip]
  exact atSafe_makeZeroEntries hs hb' (atSafe_driveImmediate hin hb)

/-- R76: the domain is TRIPPED at the end of a trip exactly if no part is left to do. -/
theorem state_trip (p : Part) (d : Fin 8) (cause : Cause) : ((p.trip d cause).domain d).state =
    if ∀ y ∈ ((p.trip d cause).domain d).progress, y.state = .done then .tripped else .tripping := by
  have hheld : ((p.tripHeld d cause).domain d).state = .tripping := by
    have hd : (p.tripHeld d cause).domains = (p.modDomain d fun x => x.trip cause p.now).domains := by
      unfold tripHeld tripForced
      split <;> simp
    have hrec : (p.tripHeld d cause).domain d = (p.domain d).trip cause p.now := by
      rw [domain, hd]
      exact (domain_modDomain ..).trans (if_pos rfl)
    rw [hrec]
    rfl
  have hdriven : ((p.tripDriven d cause).domain d).state = .tripping := by
    refine (foldl_keeps (fun p : Part => (p.domain d).state) _ (fun p x => ?_) _ _).trans
      ((foldl_keeps (fun p : Part => (p.domain d).state) _ (fun p k => state_immediateBatch ..) _ _).trans hheld)
    split
    · exact state_makeEntry ..
    · rfl
  obtain ⟨b, hb⟩ := p.trip_eq d cause
  rw [hb]
  exact state_checkSafe (by rw [domain_notify, hdriven])

/-- R72, R73: under DISCARD the members' timelines are empty, and otherwise no step is touched. -/
theorem timelines_trip (p : Part) (d : Fin 8) (cause : Cause) :
    (p.trip d cause).timelines = (p.tripHeld d cause).timelines ∧ (p.trip d cause).table = (p.tripHeld d cause).table := by
  obtain ⟨b, hb⟩ := p.trip_eq d cause
  rw [hb]
  simp [tripDriven]

theorem timeline_trip_discard (h : (p.domain d).disposition = .discard) (cause : Cause) (c : Fin 32) :
    (p.trip d cause).timeline c = if (p.domain d).members.getLsbD c.val then [] else p.timeline c := by
  rw [timeline, (timelines_trip ..).1, tripHeld, if_pos h]
  refine (timeline_dropOn _ _ _ _ c).trans ?_
  have hforced : (p.tripForced d cause).timeline c = p.timeline c := congrArg (fun v => v[c]) (forceMembers_timelines _ _)
  rw [hforced]
  exact if_congr (mem_memberList ..) (by simp) rfl

theorem trip_hold (h : (p.domain d).disposition = .hold) (cause : Cause) :
    (p.trip d cause).timelines = p.timelines ∧ (p.trip d cause).table = p.table := by
  have hheld : p.tripHeld d cause = p.tripForced d cause := if_neg (by rw [h]; simp)
  rw [(timelines_trip ..).1, (timelines_trip ..).2, hheld]
  exact ⟨forceMembers_timelines .., forceMembers_table ..⟩

end Part

/-- Settles O42, by the parts of the trip: the record, the members, the steps and the drive. -/
theorem tripForcesAndDrives : Obligations.TripForcesAndDrives := by
  intro p d cause before p' after
  have ho : ((p.domain d).trip cause p.now).Onward after := by
    have h := Part.domainsOnward_trip p d cause d
    rwa [Part.domain_modDomain, if_pos rfl] at h
  have hm := Part.moves_trip (W := fun _ => True) p d cause
  refine ⟨?_, Part.state_trip p d cause, fun c hc => ?_, fun c hc => Part.force_trip hc cause, hm.safe,
    fun h c => Part.timeline_trip_discard h cause c, fun h => Part.trip_hold h cause, fun c hc hs => Part.atSafe_trip hc hs cause,
    hm.clock, hm.inputs, hm.command, hm.engine⟩
  · rw [ho.rest]
    exact ⟨rfl, rfl, rfl, rfl, rfl, rfl, rfl⟩
  · have hb := Part.safeBound_trip hc cause
    exact ⟨hb.force, hb.waiting⟩

end Sys2Proof.Machine
end

section
/-!
A safe-sequence entry that falls due (R75, R76).
-/

namespace Sys2Proof.Machine

theorem numbered_find {l : List SequenceEntry} {n : Nat} {e : SequenceEntry} (h : l[n]? = some e) :
    (numbered l).find? (fun x => x.1 == n + 1) = some (n + 1, e) := by
  obtain ⟨hn, he⟩ := List.getElem?_eq_some_iff.1 h
  refine List.find?_eq_some_iff_getElem.2 ⟨beq_self_eq_true _, n, by simpa [numbered] using hn, ?_, fun j hj => ?_⟩
  · simp [numbered, he]
  · simp [numbered, Nat.ne_of_lt hj]

theorem Domain.markWaiting_not_pending {x : Domain} {c : Fin 32} {entry : Option Nat} {y : ProgressPart}
    (hy : y ∈ (x.markWaiting c entry).progress) (hc : y.channel = c) (he : y.entry = entry) : y.state ≠ .pending := by
  obtain ⟨z, -, rfl⟩ := List.mem_map.1 hy
  split
  · exact Progress.noConfusion
  · rename_i hz
    rw [if_neg hz] at hc he
    intro hp
    exact hz ⟨hc, he, by rw [hp]; exact Progress.noConfusion⟩

namespace Part

variable {p : Part} {d : Fin 8} {n : Nat} {e : SequenceEntry}

theorem channel_makeEntry_other {c c' : Fin 32} (hne : pairOf c ≠ pairOf c') (p : Part) (d : Fin 8) (n : Nat) :
    (p.makeEntry d n c').channel c = p.channel c := by
  obtain ⟨lo, up, hch, -⟩ := channel_makeEntry p d n c c'
  rw [hch, channel_batch, if_neg hne]

/-- R75: an entry that is made is no longer PENDING. -/
theorem makeEntry_not_pending (p : Part) (d : Fin 8) (n : Nat) (c : Fin 32) {y : ProgressPart}
    (hy : y ∈ ((p.makeEntry d n c).domain d).progress) (hc : y.channel = c) (he : y.entry = some n) :
    y.state ≠ .pending := by
  unfold makeEntry at hy
  dsimp only at hy
  rw [domain_modDomain, if_pos rfl] at hy
  exact Domain.markWaiting_not_pending hy hc he

/-- R75: the first PENDING entry of a TRIPPING domain is made when the timebase has reached its due time. -/
theorem safeSequenceEntryDue_made (hs : (p.domain d).state = .tripping) (he : (p.domain d).sequence[n]? = some e)
    (hdue : min ((p.domain d).tripTime + e.offset) maxTime ≤ p.clock.time)
    (hpending : entryProgress (p.domain d) (n + 1) = some .pending)
    (hfirst : ∀ m ≤ n, entryProgress (p.domain d) m ≠ some .pending) :
    p.safeSequenceEntryDue d (n + 1) = some ((p.makeEntry d (n + 1) e.channel).checkSafe d) := by
  unfold safeSequenceEntryDue
  dsimp only
  rw [numbered_find he]
  refine if_pos ⟨hs, hpending, fun m hm => hfirst m (Nat.lt_succ_iff.1 (List.mem_range.1 hm)), ?_⟩
  rw [satAdd_eq_min]
  exact hdue

end Part

/-- Settles O46: the entry is made as a batch of one part, and the domain looked at for its last part. -/
theorem safeSequenceEntryIsMade : Obligations.SafeSequenceEntryIsMade := by
  intro s d n e haw before hs he hdue hpending hfirst
  obtain ⟨hr, hw⟩ := (awake_iff _).1 haw
  have hc := (Part.calm_of_writesAllowed hw).moves
    ((Part.moves_makeEntry s.part d (n + 1) e.channel).trans (Part.moves_checkSafe _ d))
  have htripping : ((s.part.makeEntry d (n + 1) e.channel).domain d).state = .tripping :=
    (Part.state_makeEntry ..).trans hs
  have hon := (Part.domainsOnward_makeEntry s.part d (n + 1) e.channel d).trans (Part.domainsOnward_checkSafe _ d d)
  have hch (c : Fin 32) : (((s.part.makeEntry d (n + 1) e.channel).checkSafe d).checkHalted).channel c =
      (s.part.makeEntry d (n + 1) e.channel).channel c :=
    (Part.channel_checkHalted _ c).trans (Part.channel_checkSafe _ d c)
  refine ⟨_, takes_of_calm rfl hr (Part.safeSequenceEntryDue_made hs he hdue hpending hfirst) hc, ?_⟩
  simp only [hch, Part.domain_checkHalted]
  refine ⟨Part.atSafe_makeEntry .., fun x hx => ?_, Part.state_checkSafe htripping, ?_, ?_,
    fun c hne => Part.channel_makeEntry_other hne .., ?_, ?_, ?_, ?_, ?_⟩
  · rw [Part.domain_checkSafe htripping] at hx
    exact Part.makeEntry_not_pending s.part d (n + 1) e.channel hx
  · exact hon.causes
  · exact hon.tripTime
  all_goals simp

end Sys2Proof.Machine
end

section
/-!
RELEASE DOMAIN (R80 to R83).
-/

namespace Sys2Proof.Machine

namespace Part

variable {p : Part} {q : Fin 8} {d : Fin 8} {c : Fin 32} {W : Fin 4 → Prop}

/-- R80. -/
theorem releaseDomain_eq (p : Part) (q : Fin 8) (hd : Header) (domain : BitVec 8) : p.releaseDomain q hd domain =
    p.answered q hd (p.releaseTable domain) (p.release q hd (Fin.ofNat 8 domain.toNat)) := by
  unfold releaseTable
  rw [answered_decide, answered_decide, answered_sourceActive]
  rfl

/-! ### The release in its parts -/

/-- R81 to R83: the held steps dropped, carried forward or kept. -/
def releaseSteps (p : Part) (d : Fin 8) : Part :=
  if (p.domain d).disposition = .hold then (p.domain d).memberList.foldl releaseChannel p else p

/-- R81: the domain record ARMED, without causes and progress. -/
def releaseRecord (p : Part) (d : Fin 8) : Part :=
  (p.releaseSteps d).modDomain d fun x => { x with causes := 0, progress := [], state := .armed }

/-- R81: the members SCHEDULED. -/
def releaseMembers (p : Part) (d : Fin 8) : Part :=
  (p.domain d).memberList.foldl (fun p c => p.unforceChannel .domain c) (p.releaseRecord d)

/-- How many held steps a release drops EXPIRED (R81). -/
def expiredCount (p : Part) (d : Fin 8) : Nat :=
  if (p.domain d).disposition = .hold then p.fateCount (p.domain d).memberList (· == .expired) else 0

theorem release_eq (p : Part) (q : Fin 8) (hd : Header) (d : Fin 8) :
    ∃ b, p.release q hd d = ((p.releaseMembers d).notify b).complete q hd .ok (p.expiredCount d) := by
  unfold release releaseMembers releaseRecord releaseSteps expiredCount
  dsimp only
  simp only [beq_iff_eq]
  exact ⟨_, rfl⟩

/-! ### What the parts are made of -/

theorem moves_releaseChannel (p : Part) (c : Fin 32) : Moves W p (p.releaseChannel c) :=
  (Relation.ReflTransGen.single (.timeline p c _ (Thins.releaseTimeline ..))).trans (moves_resolveAll ..)

theorem moves_releaseMembers (p : Part) (d : Fin 8) : Moves W p (p.releaseMembers d) := by
  have hsteps : Moves W p (p.releaseSteps d) := by
    unfold releaseSteps
    split
    · exact Moves.foldl _ moves_releaseChannel _ _
    · exact .refl
  have hrecord : Moves W p (p.releaseRecord d) := hsteps.domain fun _ => rfl
  exact hrecord.trans (Moves.foldl _ (fun p c => moves_unforceChannel p .domain c) _ _)

/-- A command of a queue whose completion queue may be written is answered, and the release meets no posting fault. -/
theorem moves_release (hW : W (p.queue q).cq) (hd : Header) (d : Fin 8) : Moves W p (p.release q hd d) := by
  obtain ⟨b, hb⟩ := p.release_eq q hd d
  have hm : Moves (fun _ => True) p _ := (moves_releaseMembers p d).trans (moves_notify _ b)
  rw [hb]
  refine ((moves_releaseMembers p d).trans (moves_notify _ b)).trans (moves_complete _ q hd _ _ ?_)
  rwa [queue, hm.command]

/-! ### The held steps -/

theorem timeline_releaseChannel (p : Part) (c c' : Fin 32) : (p.releaseChannel c).timeline c' =
    if c' = c then releaseTimeline p.now (p.timeline c) else p.timeline c' := by
  unfold releaseChannel
  rw [timeline_resolveAll, timeline_setTimeline]

theorem timeline_releaseChannels {l : List (Fin 32)} (hl : l.Nodup) (p : Part) (c : Fin 32) :
    (l.foldl releaseChannel p).timeline c = if c ∈ l then releaseTimeline p.now (p.timeline c) else p.timeline c := by
  induction l generalizing p with
  | nil => rfl
  | cons x l ih =>
    obtain ⟨hx, hl⟩ := List.nodup_cons.1 hl
    have hnow : (p.releaseChannel x).now = p.now :=
      congrArg Clock.time (moves_releaseChannel (W := fun _ => True) p x).clock
    rw [List.foldl_cons, ih hl, timeline_releaseChannel, hnow]
    by_cases hc : c = x
    · subst hc
      simp [hx]
    · simp [hc]

theorem nodup_memberList (x : Domain) : x.memberList.Nodup := (List.nodup_finRange 32).filter _

/-- R81: under HOLD the timelines of the members are those of a release; others are left. -/
theorem timeline_releaseSteps (p : Part) (d : Fin 8) (c : Fin 32) : (p.releaseSteps d).timeline c =
    if (p.domain d).members.getLsbD c.val = true ∧ (p.domain d).disposition = .hold
    then releaseTimeline p.clock.time (p.timeline c) else p.timeline c := by
  unfold releaseSteps
  by_cases hh : (p.domain d).disposition = .hold
  · rw [if_pos hh, timeline_releaseChannels (nodup_memberList _)]
    exact if_congr ((mem_memberList ..).trans (and_iff_left hh).symm) rfl rfl
  · rw [if_neg hh, if_neg fun h => hh h.2]

/-- The steps change no output and no domain. -/
theorem releaseSteps_keeps (p : Part) (d : Fin 8) :
    (p.releaseSteps d).output = p.output ∧ (p.releaseSteps d).domains = p.domains := by
  unfold releaseSteps
  split
  · exact ⟨foldl_keeps Part.output _ (fun p c => by simp [releaseChannel]) _ _,
      foldl_keeps Part.domains _ (fun p c => by simp [releaseChannel]) _ _⟩
  · exact ⟨rfl, rfl⟩

/-! ### The record and the members -/

theorem channel_unforceChannels (l : List (Fin 32)) (p : Part) (c : Fin 32) :
    (l.foldl (fun p c => p.unforceChannel .domain c) p).channel c =
      if c ∈ l ∧ (p.channel c).force = some .domain then { p.channel c with force := none } else p.channel c := by
  induction l generalizing p with
  | nil => simp
  | cons x l ih =>
    rw [List.foldl_cons, ih, unforceChannel, channel_modChannel]
    by_cases hc : c = x
    · subst hc
      by_cases hf : (p.channel c).force = some .domain <;> simp [hf]
    · simp [hc]

/-- R81: the members that the domain forced are SCHEDULED at the levels they have. -/
theorem channel_releaseMembers (p : Part) (d : Fin 8) (c : Fin 32) : (p.releaseMembers d).channel c =
    if (p.domain d).members.getLsbD c.val = true ∧ (p.channel c).force = some .domain
    then { p.channel c with force := none } else p.channel c := by
  have hch : (p.releaseRecord d).channel c = p.channel c := channel_of_output (p.releaseSteps_keeps d).1 c
  unfold releaseMembers
  rw [channel_unforceChannels, hch]
  exact if_congr (and_congr_left' (mem_memberList ..)) rfl rfl

/-- What unforcing a channel keeps, the release of the members keeps. -/
theorem releaseMembers_keeps {γ : Type} (g : Part → γ) (hg : ∀ p c, g (p.unforceChannel .domain c) = g p) (p : Part)
    (d : Fin 8) : g (p.releaseMembers d) = g (p.releaseRecord d) := foldl_keeps g _ hg _ _

theorem domain_releaseMembers (p : Part) (d e : Fin 8) : (p.releaseMembers d).domain e =
    if e = d then { p.domain d with state := .armed, causes := 0, progress := [] } else p.domain e := by
  have hdom (e : Fin 8) : (p.releaseSteps d).domain e = p.domain e :=
    congrArg (fun v => v[e]) (p.releaseSteps_keeps d).2
  rw [releaseMembers_keeps (fun p => p.domain e) fun _ _ => rfl, releaseRecord, domain_modDomain, hdom, hdom]

theorem pairs_releaseMembers (p : Part) (d : Fin 8) : (p.releaseMembers d).output.pairs = p.output.pairs :=
  (releaseMembers_keeps (fun p => p.output.pairs) (fun _ _ => rfl) ..).trans (congrArg Output.pairs (p.releaseSteps_keeps d).1)

theorem timeline_releaseMembers (p : Part) (d : Fin 8) (c : Fin 32) :
    (p.releaseMembers d).timeline c = (p.releaseSteps d).timeline c :=
  releaseMembers_keeps (fun p => p.timeline c) (fun _ _ => rfl) ..

/-! ### The completion -/

/-- R81: the steps dropped are those of the members that expire at the release. -/
theorem expiredCount_eq (p : Part) (d : Fin 8) : p.expiredCount d =
    if (p.domain d).disposition = .hold
    then ((List.finRange 32).map fun c => if (p.domain d).members.getLsbD c.val
      then (expiredAt p.clock.time (p.timeline c)).length else 0).sum
    else 0 := by
  unfold expiredCount fateCount countOn Domain.memberList expiredAt
  simp [List.sum_map_ite, now]

/-- R81: while RUNNING, the completion is the last item handed over. -/
theorem writeList_release (hr : p.engine.state = .running) (hd : Header) :
    (p.release q hd d).posting.writeList.getLast? = some (.completion (p.queue q).cq
      { queue := q, id := hd.id, status := .ok, drops := 0, value := p.clock.time, aux := p.expiredCount d }) := by
  obtain ⟨b, hb⟩ := p.release_eq q hd d
  have hm : Moves (fun _ => True) p _ := (moves_releaseMembers p d).trans (moves_notify _ b)
  rw [hb, complete, handCompletion_writeList (isPosting_running (by rw [hm.engine, hr])), List.getLast?_concat, now, hm.clock,
    queue, hm.command]
  rfl

end Part

/-- Settles O43, by the parts of the release: the held steps, the record, the members and the completion. -/
theorem releaseReturnsTheMembers : Obligations.ReleaseReturnsTheMembers := by
  intro h domain s q hr ha T d before table
  have hauth := (congrArg (fun a => a.getLsbD 1) (Part.authority_taken s.part q)).trans ha
  have htakes : takes (.releaseDomain h domain) s (T.answered q h table (T.release q h d)) :=
    answered_takes (cmd := .releaseDomain domain) rfl hr
      ((Part.process_authorised (cls := 1) rfl hauth h).trans (Part.releaseDomain_eq ..))
      ((Part.ready_calm hr).moves (Part.moves_release (Part.ready_owes hr) h d))
      (Part.moves_release (W := fun _ => True) trivial h d).engine
  refine ⟨fun row hrow => ?_, fun hnone => ⟨T.release q h d, ?_, ?_⟩⟩
  · rwa [Part.answered, hrow] at htakes
  · rwa [Part.answered, hnone] at htakes
  · have hm := Part.moves_release (p := T) (q := q) (W := fun _ => True) trivial h d
    obtain ⟨b, hb⟩ := T.release_eq q h d
    have hdom (e : Fin 8) : (T.release q h d).domain e = (T.releaseMembers d).domain e := by
      rw [hb, Part.domain, Part.complete_domains, Part.notify_domains]
      rfl
    have hout : (T.release q h d).output = (T.releaseMembers d).output := by
      rw [hb, Part.complete_output, Part.notify_output]
    refine ⟨?_, fun c => ?_, fun c => ?_, ?_, fun e he => ?_, ?_, hm.clock, hm.inputs, hm.command, hm.engine⟩
    · rw [hdom, Part.domain_releaseMembers, if_pos rfl]
    · exact (Part.channel_of_output hout c).trans (T.channel_releaseMembers d c)
    · have htl : (T.release q h d).timeline c = (T.releaseMembers d).timeline c := by
        rw [hb, Part.timeline, Part.complete_timelines, Part.notify_timelines]
        rfl
      exact htl.trans ((T.timeline_releaseMembers d c).trans (T.timeline_releaseSteps d c))
    · rw [Part.writeList_release (Part.ready_running hr), Part.expiredCount_eq]
    · rw [hdom, Part.domain_releaseMembers, if_neg he]
    · exact (congrArg Output.pairs hout).trans (T.pairs_releaseMembers d)

end Sys2Proof.Machine
end

section
/-!
The commands of the Fault Input Block (R99, R100, R102): the code fields that pass check 2 name a polarity and a mode, and each
command is answered from its refusal table.
-/

namespace Sys2Proof.Machine

theorem Polarity.ofCode_isSome (b : BitVec 8) : (Polarity.ofCode b.toNat).isSome = true ↔ b = 1 ∨ b = 2 := by
  rw [BitVec.toNat_eq, BitVec.toNat_eq]
  unfold Polarity.ofCode
  split <;> simp_all

theorem Polarity.ofCode_getD {b : BitVec 8} (h : b = 1 ∨ b = 2) :
    (Polarity.ofCode b.toNat).getD .activeHigh = if b = 1 then .activeHigh else .activeLow := by
  obtain rfl | rfl := h <;> rfl

theorem InputMode.ofCode_isSome (b : BitVec 8) : (InputMode.ofCode b.toNat).isSome = true ↔ b = 1 ∨ b = 2 := by
  rw [BitVec.toNat_eq, BitVec.toNat_eq]
  unfold InputMode.ofCode
  split <;> simp_all

theorem InputMode.ofCode_getD {b : BitVec 8} (h : b = 1 ∨ b = 2) :
    (InputMode.ofCode b.toNat).getD .level = if b = 1 then .level else .latched := by
  obtain rfl | rfl := h <;> rfl

theorem sampleInterval_contains (b : BitVec 16) :
    [1, 8, 64, 512].contains b.toNat = true ↔ b = 1 ∨ b = 8 ∨ b = 64 ∨ b = 512 := by
  simp [BitVec.toNat_eq]

/-- R99, check 2: the fields are valid when each is within its range. -/
theorem inputFieldsValid_iff (b : InputBody) : inputFieldsValid b = true ↔
    (b.polarity = 1 ∨ b.polarity = 2) ∧ (b.mode = 1 ∨ b.mode = 2) ∧
      (b.sampleInterval = 1 ∨ b.sampleInterval = 8 ∨ b.sampleInterval = 64 ∨ b.sampleInterval = 512) ∧
      b.filterCount ≠ 0 ∧ b.filterCount.toNat ≤ 15 := by
  have hcount : 1 ≤ b.filterCount.toNat ↔ b.filterCount ≠ 0 := by
    rw [Ne, BitVec.toNat_eq]
    exact Nat.one_le_iff_ne_zero
  simp only [inputFieldsValid, Bool.and_eq_true, decide_eq_true_eq, Polarity.ofCode_isSome, InputMode.ofCode_isSome,
    sampleInterval_contains, hcount, and_assoc]

/-- R99, check 2, as the refusal table words it. -/
theorem not_inputFieldsValid_iff (b : InputBody) : (!inputFieldsValid b) = true ↔
    (b.polarity ≠ 1 ∧ b.polarity ≠ 2) ∨ (b.mode ≠ 1 ∧ b.mode ≠ 2) ∨
      (b.sampleInterval ≠ 1 ∧ b.sampleInterval ≠ 8 ∧ b.sampleInterval ≠ 64 ∧ b.sampleInterval ≠ 512) ∨
      b.filterCount = 0 ∨ 15 < b.filterCount.toNat := by
  rw [Bool.not_eq_true', ← Bool.not_eq_true, inputFieldsValid_iff]
  simp only [not_and_or, not_or, not_not, not_le, ne_eq]

/-- The record with the values of CONFIGURE FAULT INPUT, a code that is not 1 read as the other one (R100). -/
def commandedInput (b : InputBody) : FaultInput :=
  { enabled := b.flags.getLsbD 0, polarity := if b.polarity = 1 then .activeHigh else .activeLow,
    mode := if b.mode = 1 then .level else .latched, interval := b.sampleInterval.toNat,
    filterCount := b.filterCount.toNat, report := b.flags.getLsbD 1, filtered := false, run := 0, latch := false,
    spacing := 0 }

/-- With valid fields, the codes are those of the polarity and the mode that the command leaves. -/
theorem configuredInput_eq {b : InputBody} (h : inputFieldsValid b = true) : configuredInput b = commandedInput b := by
  obtain ⟨hpolarity, hmode, -⟩ := (inputFieldsValid_iff b).1 h
  rw [configuredInput, Polarity.ofCode_getD hpolarity, InputMode.ofCode_getD hmode, commandedInput]

namespace Part

variable {p : Part} {q : Fin 8}

/-- Calm does not depend on the fault inputs. -/
theorem Calm.modInput {W : Fin 4 → Prop} (hc : Calm W p) (n : Fin 16) (f : FaultInput → FaultInput) :
    Calm W (p.modInput n f) := hc.congr rfl rfl rfl rfl

/-- Whether a domain is not DISARMED and its source set holds a bit (R99 check 3). -/
def served (p : Part) (source : Nat) (d : Fin 8) : Bool :=
  (p.domain d).sources.getLsbD source && (p.domain d).state != .disarmed

/-- A refusal for the lowest domain that a source serves, as the last row of a table. -/
theorem answered_served (source : Nat) (hd : Header) (acc : Part) :
    p.answered q hd
        [((List.finRange 8).any (p.served source), .wrongState, (List.finRange 8).findIdx (p.served source))] acc =
      (p.servingDomain source).elim acc fun d => p.complete q hd .wrongState d.val := by
  cases hf : p.servingDomain source with
  | none => exact answered_not_found hf ..
  | some d => exact (answered_found hf ..).trans (congrArg (p.complete q hd .wrongState) (findIdx_finRange hf))

/-- The refusals of CONFIGURE FAULT INPUT, in the order of R99. -/
def inputTable (p : Part) (b : InputBody) : List (Bool × Status × Nat) :=
  let n := Fin.ofNat 16 b.input.toNat
  [ (decide (16 ≤ b.input.toNat), .badField, 1),
    (decide ((b.polarity ≠ 1 ∧ b.polarity ≠ 2) ∨ (b.mode ≠ 1 ∧ b.mode ≠ 2) ∨
      (b.sampleInterval ≠ 1 ∧ b.sampleInterval ≠ 8 ∧ b.sampleInterval ≠ 64 ∧ b.sampleInterval ≠ 512) ∨
      b.filterCount = 0 ∨ 15 < b.filterCount.toNat), .badField, 2),
    ((List.finRange 8).any (p.served n.val), .wrongState, (List.finRange 8).findIdx (p.served n.val)) ]

/-- R99, R100. -/
theorem configureFaultInput_eq (p : Part) (q : Fin 8) (hd : Header) (b : InputBody) : p.configureFaultInput q hd b =
    p.answered q hd (p.inputTable b)
      ((p.modInput (Fin.ofNat 16 b.input.toNat) fun _ => commandedInput b).complete q hd .ok
        (p.input (Fin.ofNat 16 b.input.toNat)).aux) := by
  unfold inputTable
  dsimp only
  rw [answered_decide, answered_decide, answered_served]
  refine ite_congr rfl (fun _ => rfl) fun _ =>
    ite_congr (propext (not_inputFieldsValid_iff b)) (fun _ => rfl) fun hrefused => ?_
  have hvalid : inputFieldsValid b = true := by
    simpa using mt (not_inputFieldsValid_iff b).1 hrefused
  rw [configuredInput_eq hvalid]
  dsimp only
  cases p.servingDomain (Fin.ofNat 16 b.input.toNat).val <;> rfl

/-- The refusals of CLEAR FAULT LATCH, in the order of R102. -/
def latchTable (p : Part) (input : BitVec 8) : List (Bool × Status × Nat) :=
  let n := Fin.ofNat 16 input.toNat
  [ (decide (16 ≤ input.toNat), .badField, 1),
    (decide ((p.input n).mode ≠ .latched), .wrongState, 0),
    ((p.input n).filtered, .sourceActive, input.toNat) ]

/-- R102: within the range of check 1, the input that a refusal names is the one that the record gives. -/
theorem clearFaultLatch_eq (p : Part) (q : Fin 8) (hd : Header) (input : BitVec 8) : p.clearFaultLatch q hd input =
    p.answered q hd (p.latchTable input)
      ((p.modInput (Fin.ofNat 16 input.toNat) fun x => { x with latch := false }).complete q hd .ok
        (bit (p.input (Fin.ofNat 16 input.toNat)).latch)) := by
  unfold latchTable
  dsimp only
  rw [answered_decide, answered_decide, answered_cons, answered_nil]
  refine ite_congr rfl (fun _ => rfl) fun hrange => ite_congr rfl (fun _ => rfl) fun _ => ?_
  have hn : (Fin.ofNat 16 input.toNat).val = input.toNat := Nat.mod_eq_of_lt (not_le.1 hrange)
  rw [hn]

end Part

/-- R100: what CONFIGURE FAULT INPUT reports is the filtered level in bit 0 and the latch in bit 1. -/
theorem FaultInput.aux_eq (i : FaultInput) : i.aux = (if i.filtered then 1 else 0) + if i.latch then 2 else 0 := by
  unfold aux bit
  cases i.latch <;> rfl

/-- Settles O47, by the two tables; a change of an input's record meets no posting fault. -/
theorem faultInputCommands : Obligations.FaultInputCommands := by
  intro h s q hr ha T serving
  have hauth := (congrArg (fun a => a.getLsbD 2) (Part.authority_taken s.part q)).trans ha
  have hc := Part.ready_calm hr
  have hW := Part.ready_owes hr
  refine ⟨fun b => ?_, fun input => ?_⟩
  · intro n
    rw [← FaultInput.aux_eq]
    refine answered_takes (cmd := .configureFaultInput b) rfl hr ?_ ((hc.modInput _ _).complete hW h _ _)
      (Part.complete_engine ..)
    exact (Part.process_authorised (cls := 2) rfl hauth h).trans (Part.configureFaultInput_eq ..)
  · refine answered_takes (cmd := .clearFaultLatch input) rfl hr ?_ ((hc.modInput _ _).complete hW h _ _)
      (Part.complete_engine ..)
    exact (Part.process_authorised (cls := 2) rfl hauth h).trans (Part.clearFaultLatch_eq ..)

end Sys2Proof.Machine
end

section
/-!
The queue's step and the edges of the clock pins (R108, R109, R113; logs 1, 2 and 11): an event that leaves Engine Control nothing
to do has its effect and nothing more.
-/

namespace Sys2Proof.Machine

theorem step_of_empty {s : State} (h : s.pending = []) : step s = .next { s with part := s.part.backupPeriod } := by
  unfold step
  split
  next => rfl
  next c rest hp => rw [h] at hp; cases hp

/-- Settles O1: the front command's step is its execution; with no command the step is a period of the backup oscillator. -/
theorem stepTakesTheFrontCommand : Obligations.StepTakesTheFrontCommand :=
  ⟨fun _ _ => rfl, fun s hs => (step_of_empty hs).trans
    (congrArg (fun p => Host.Outcome.next { s with part := p }) s.part.backupPeriod_eq)⟩

/-- An event that leaves Engine Control nothing to do at its end takes the machine to its effect. -/
theorem takes_of_settled {i : Instr} {f : Part → Option Part} {s : State} {p : Part} (hi : exec i s = event f s)
    (hr : s.part.resetAsserted = false) (hp : f s.part = some p) (hset : p.settled = true) : takes i s p := by
  unfold takes
  rw [hi, event_some hr hp, Part.settle_settled hset]

namespace Part

variable {p : Part} {w : SupervisorWindow}

theorem primaryIndicationAbsent_taken (hs : p.clock.source = .backup) (hd : 32 ≤ p.clock.detectorCount) :
    p.primaryIndicationAbsent = some p.detectorReached := if_pos ⟨hs, hd⟩

theorem primaryIndicationAbsent_none (hd : p.clock.detectorCount < 32) : p.primaryIndicationAbsent = none :=
  if_neg fun h => Nat.not_le_of_lt hd h.2

/-- R113: the opening edge of a window that waits for it. -/
theorem refEdge_opens (hm : p.clock.supervisor.measures = true) (hw : p.clock.supervisor.window = some w)
    (ho : w.isOpen = false) : p.refEdge = some (p.modSupervisor fun s => { s with window := some .opened }) := by
  rw [refEdge, hw]
  simp only [hm, ho, Bool.not_true, Bool.not_false, Bool.false_eq_true, if_false, if_true]

/-- R113: an edge within an open window, before the closing one. -/
theorem refEdge_counted (hm : p.clock.supervisor.measures = true) (hw : p.clock.supervisor.window = some w)
    (ho : w.isOpen = true) (he : w.edges + 1 < p.clock.supervisor.windowLength) : p.refEdge =
      some (p.modSupervisor fun s => { s with window := some { w with edges := w.edges + 1, refTimer := 0 } }) := by
  rw [refEdge, hw]
  simp only [hm, ho, Bool.not_true, Bool.false_eq_true, if_false, if_neg (Nat.not_le_of_lt he)]

end Part

/-- Settles O51: each edge or event changes the clock alone, or does not occur. -/
theorem clockPinEdges : Obligations.ClockPinEdges := by
  refine ⟨fun s hr hset => ⟨?_, fun hs hd => ?_, fun hd => ?_⟩, fun s w hr hset => ?_⟩
  · exact takes_of_settled (i := .tclkEdge) (f := fun p => some p.tclkEdge) rfl hr rfl hset
  · exact takes_of_settled (i := .primaryIndicationAbsent) (f := Part.primaryIndicationAbsent) rfl hr
      (Part.primaryIndicationAbsent_taken hs hd) hset
  · exact takes_of_none (i := .primaryIndicationAbsent) (f := Part.primaryIndicationAbsent) rfl
      (Part.primaryIndicationAbsent_none hd)
  · intro sup hstate hw withWindow
    have hm := sup.measures_iff.2 hstate
    exact ⟨fun ho => takes_of_settled (i := .refEdge) (f := Part.refEdge) rfl hr (Part.refEdge_opens hm hw ho) hset,
      fun ho he => takes_of_settled (i := .refEdge) (f := Part.refEdge) rfl hr (Part.refEdge_counted hm hw ho he) hset⟩

end Sys2Proof.Machine
end

section
/-!
The commands of the clock supervisor (R119 to R121): the fields that pass checks 1 to 5, and each command answered from its
refusal table.
-/

namespace Sys2Proof.Machine

/-- A field that is not within its range, which begins at 1. -/
theorem not_within_iff {n : Nat} (x : BitVec n) (m : Nat) :
    (!(decide (1 ≤ x.toNat) && decide (x.toNat ≤ m))) = true ↔ x = 0 ∨ m < x.toNat := by
  have hzero : 1 ≤ x.toNat ↔ x ≠ 0 := by
    rw [Ne, BitVec.toNat_eq]
    exact Nat.one_le_iff_ne_zero
  simp only [Bool.not_eq_true', ← Bool.not_eq_true, Bool.and_eq_true, decide_eq_true_eq, hzero, not_and_or, not_not, not_le]

theorem FailAction.ofCode_isNone (b : BitVec 8) : (FailAction.ofCode b.toNat).isNone = true ↔ b ≠ 1 ∧ b ≠ 2 := by
  rw [Ne, Ne, BitVec.toNat_eq, BitVec.toNat_eq]
  unfold FailAction.ofCode
  split <;> simp_all

theorem FailAction.ofCode_eq {b : BitVec 8} (h : ¬(b ≠ 1 ∧ b ≠ 2)) :
    FailAction.ofCode b.toNat = some (if b = 1 then .flagOnly else .switchToBackup) := by
  obtain rfl | rfl : b = 1 ∨ b = 2 := by simpa only [ne_eq, not_and_or, not_not] using h
  · rfl
  · rfl

/-- R119, check 2: both limits lie within their range, the lower one no higher than the upper. -/
abbrev LimitsPass (b : SupervisorBody) : Prop :=
  (1 ≤ b.lowerLimit.toNat ∧ b.lowerLimit.toNat < 2 ^ 24) ∧ (1 ≤ b.upperLimit.toNat ∧ b.upperLimit.toNat < 2 ^ 24) ∧
    b.lowerLimit ≤ b.upperLimit

theorem not_limitsPass_iff (b : SupervisorBody) :
    (!(decide (1 ≤ b.lowerLimit.toNat) && decide (b.lowerLimit.toNat < 2 ^ 24) && decide (1 ≤ b.upperLimit.toNat) &&
      decide (b.upperLimit.toNat < 2 ^ 24) && decide (b.lowerLimit.toNat ≤ b.upperLimit.toNat))) = true ↔ ¬LimitsPass b := by
  simp only [Bool.not_eq_true', ← Bool.not_eq_true, Bool.and_eq_true, decide_eq_true_eq, LimitsPass, BitVec.le_def, and_assoc]

/-- The refusals of R119 that depend on the fields alone, as the aux each gives with BAD FIELD. -/
theorem supervisorFieldError_eq (b : SupervisorBody) : supervisorFieldError b =
    if b.windowLength = 0 ∨ 4096 < b.windowLength.toNat then some 1
    else if ¬LimitsPass b then some 2
    else if b.failCount = 0 ∨ 15 < b.failCount.toNat then some 3
    else if b.referenceTimeout = 0 ∨ 2 ^ 24 < b.referenceTimeout.toNat then some 4
    else if b.failAction ≠ 1 ∧ b.failAction ≠ 2 then some 5
    else none := by
  unfold supervisorFieldError
  simp only [not_within_iff, not_limitsPass_iff, FailAction.ofCode_isNone]

/-- The record of an accepted CONFIGURE SUPERVISOR, a fail action code that is not 1 read as the other one (R120). -/
def commandedSupervisor (b : SupervisorBody) : Supervisor :=
  { state := if b.enable.getLsbD 0 then .settling else .disabled, windowLength := b.windowLength.toNat,
    lowerLimit := b.lowerLimit.toNat, upperLimit := b.upperLimit.toNat, failCount := b.failCount.toNat,
    referenceTimeout := b.referenceTimeout.toNat,
    failAction := some (if b.failAction = 1 then .flagOnly else .switchToBackup), bad := 0, verdict := none, lastCount := 0,
    window := if b.enable.getLsbD 0 then some .awaiting else none }

theorem configuredSupervisor_eq {b : SupervisorBody} (h : ¬(b.failAction ≠ 1 ∧ b.failAction ≠ 2)) :
    configuredSupervisor b = commandedSupervisor b := by
  rw [configuredSupervisor, FailAction.ofCode_eq h, commandedSupervisor]

namespace Part

variable {p : Part} {W : Fin 4 → Prop}

/-- The refusals of CONFIGURE SUPERVISOR, in the order of R119. -/
def supervisorTable (p : Part) (b : SupervisorBody) : List (Bool × Status × Nat) :=
  [ (decide (b.windowLength = 0 ∨ 4096 < b.windowLength.toNat), .badField, 1),
    (decide (¬LimitsPass b), .badField, 2),
    (decide (b.failCount = 0 ∨ 15 < b.failCount.toNat), .badField, 3),
    (decide (b.referenceTimeout = 0 ∨ 2 ^ 24 < b.referenceTimeout.toNat), .badField, 4),
    (decide (b.failAction ≠ 1 ∧ b.failAction ≠ 2), .badField, 5),
    ((List.finRange 8).any (p.served 16), .wrongState, (List.finRange 8).findIdx (p.served 16)) ]

/-- R119, R120. -/
theorem configureSupervisor_eq (p : Part) (q : Fin 8) (hd : Header) (b : SupervisorBody) : p.configureSupervisor q hd b =
    p.answered q hd (p.supervisorTable b)
      ((p.modSupervisor fun _ => commandedSupervisor b).complete q hd .ok p.clock.beforeAux) := by
  unfold supervisorTable configureSupervisor
  rw [supervisorFieldError_eq]
  simp only [answered_decide, answered_served]
  split_ifs with _ _ _ _ haction
  case neg =>
    rw [← configuredSupervisor_eq haction]
    dsimp only
    cases p.servingDomain 16 <;> rfl
  all_goals rfl

/-- The refusals of RESTORE PRIMARY CLOCK, in the order of R121. -/
def restoreTable (p : Part) : List (Bool × Status × Nat) :=
  [ (decide (p.clock.supervisor.state ≠ .failed ∧ p.clock.source = .primary), .wrongState, 0),
    (!p.clock.primaryPresent, .sourceActive, 0) ]

/-- R121: the supervisor after an accepted RESTORE PRIMARY CLOCK. -/
def restoredSupervisor (s : Supervisor) : Supervisor := if s.state = .disabled then s else s.settle

/-- R121: the source restored, with the notice of the switch, which carries the supervisor's state after the command (R107). -/
def restoredSource (p : Part) : Part :=
  if p.clock.source = .backup then p.switchSource .primary .restored (restoredSupervisor p.clock.supervisor).state else p

theorem restoredSupervisor_state (s : Supervisor) :
    (restoredSupervisor s).state = if s.state = .disabled then .disabled else .settling := by
  unfold restoredSupervisor
  split
  next h => exact h
  next => rfl

theorem restoredSource_supervisor (p : Part) : p.restoredSource.clock.supervisor = p.clock.supervisor := by
  unfold restoredSource
  split
  · rw [(p.switchSource_keeps ..).1]
  · rfl

theorem restoredSource_engine (p : Part) : p.restoredSource.engine = p.engine := by
  unfold restoredSource
  split
  · exact notify_engine ..
  · rfl

theorem restoredSource_command (p : Part) : p.restoredSource.command = p.command := by
  unfold restoredSource
  split
  · exact notify_command ..
  · rfl

theorem Calm.restoredSource (hc : Calm W p) : Calm W p.restoredSource := by
  unfold Part.restoredSource
  split
  · exact hc.switchSource ..
  · exact hc

/-- R121: the supervisor's record is replaced by the restored one, which is its own where it is DISABLED. -/
theorem modSupervisor_restored {s : Supervisor} (h : p.clock.supervisor = s) :
    (p.modSupervisor fun _ => restoredSupervisor s) = if s.state = .disabled then p else p.modSupervisor Supervisor.settle := by
  subst h
  unfold restoredSupervisor
  split <;> rfl

/-- R121. -/
theorem restorePrimaryClock_eq (p : Part) (q : Fin 8) (hd : Header) : p.restorePrimaryClock q hd =
    p.answered q hd p.restoreTable
      ((p.restoredSource.modSupervisor fun _ => restoredSupervisor p.clock.supervisor).complete q hd .ok
        p.clock.beforeAux) := by
  rw [modSupervisor_restored p.restoredSource_supervisor]
  unfold restoredSource restoreTable
  rw [answered_decide, answered_cons, answered_nil, restoredSupervisor_state]
  rfl

end Part

/-- Settles O54, by the two tables; the notice of a switch and a change of the supervisor meet no posting fault. -/
theorem clockCommands : Obligations.ClockCommands := by
  refine ⟨fun h b s q hr ha => ?_, fun h s q hr ha => ?_⟩
  · intro T serving limitPasses enable
    have hauth := (congrArg (fun a => a.getLsbD 3) (Part.authority_taken s.part q)).trans ha
    refine answered_takes (cmd := .configureSupervisor b) (t := T.supervisorTable b) rfl hr ?_
      (((Part.ready_calm hr).modClock _).complete (Part.ready_owes hr) h _ _) (Part.complete_engine ..)
    exact (Part.process_authorised (cls := 3) rfl hauth h).trans (Part.configureSupervisor_eq ..)
  · intro T sup settled switched
    have hauth := (congrArg (fun a => a.getLsbD 3) (Part.authority_taken s.part q)).trans ha
    have hW : s.part.owes (T.restoredSource.queue q).cq = true := by
      rw [Part.queue, Part.restoredSource_command]
      exact Part.ready_owes hr
    refine answered_takes (cmd := .restorePrimaryClock) (t := T.restoreTable) rfl hr ?_
      (((Part.ready_calm hr).restoredSource.modClock _).complete hW h _ _)
      ((Part.complete_engine ..).trans T.restoredSource_engine)
    exact (Part.process_authorised (cls := 3) rfl hauth h).trans (Part.restorePrimaryClock_eq ..)

end Sys2Proof.Machine
end

section
/-!
The timebase under the commands (R105): no command's effect changes it but the tick, which counts it up, and a hard reset. Each
block's commands in turn, in the order of the model.
-/

namespace Sys2Proof.Machine

namespace Part

variable {p p' : Part} {hd : Header}

/-! ### Admission and the Step Scheduler -/

@[simp] theorem admission_time (p : Part) (q : Fin 8) (hd : Header) (steps : List RawStep) :
    (p.admission q hd steps).clock.time = p.clock.time := by
  have hplaced (link : Option (Fin 64)) : (p.placeAdmitted q hd link steps).clock = p.clock :=
    by rw [placeAdmitted_eq]
  unfold admission
  dsimp only
  split
  · rw [setEntry_clock, hplaced]
  · rw [complete_clock, hplaced]

@[simp] theorem scheduleInline_time (p : Part) (q : Fin 8) (hd : Header) (cmd : Command) :
    (p.scheduleInline q hd cmd).clock.time = p.clock.time := by
  unfold scheduleInline park
  split
  · simp
  · split <;> simp

@[simp] theorem retry_time (p : Part) (q : Fin 8) (held : Held) : (p.retry q held).clock.time = p.clock.time := by
  unfold retry unpark
  split
  · simp
  · split <;> simp

@[simp] theorem admitList_time (p : Part) (q : Fin 8) (hd : Header) (steps : List RawStep) :
    (p.admitList q hd steps).clock.time = p.clock.time := by
  unfold admitList
  split <;> simp

@[simp] theorem scheduleList_time (p : Part) (q : Fin 8) (hd : Header) (b : ListBody) :
    (p.scheduleList q hd b).clock.time = p.clock.time := by
  unfold scheduleList
  dsimp only
  split
  · simp
  · split <;> simp

@[simp] theorem cancelTag_time (p : Part) (q : Fin 8) (hd : Header) (tag : BitVec 16) :
    (p.cancelTag q hd tag).clock.time = p.clock.time := by
  simp [cancelTag]

@[simp] theorem cancelChannel_time (p : Part) (q : Fin 8) (hd : Header) (channel : BitVec 8) :
    (p.cancelChannel q hd channel).clock.time = p.clock.time := by
  unfold cancelChannel
  dsimp only
  split
  · simp
  · split <;> simp

/-! ### The Output Stage -/

@[simp] theorem requestIdle_clock (p : Part) (c : Fin 32) (idle : IdleLevel) : (p.requestIdle c idle).clock = p.clock := by
  cases idle with
  | keep => rfl
  | level l => exact requestOne_clock ..

@[simp] theorem configureChannel_time (p : Part) (q : Fin 8) (hd : Header) (b : ChannelBody) :
    (p.configureChannel q hd b).clock.time = p.clock.time := by
  unfold configureChannel
  split <;> simp

@[simp] theorem configurePair_time (p : Part) (q : Fin 8) (hd : Header) (b : PairBody) :
    (p.configurePair q hd b).clock.time = p.clock.time := by
  unfold configurePair
  split <;> simp

@[simp] theorem queryChannel_time (p : Part) (q : Fin 8) (hd : Header) (channel : BitVec 8) :
    (p.queryChannel q hd channel).clock.time = p.clock.time := by
  unfold queryChannel
  dsimp only
  split
  · simp
  · split <;> simp

/-! ### The Domain Unit, the Fault Input Block and the clock supervisor -/

theorem answered_time (hd : Header) (t : List (Bool × Status × Nat)) {acc : Part} (ha : acc.clock.time = p.clock.time) :
    (p.answered q hd t acc).clock.time = p.clock.time := by
  unfold Part.answered
  split
  · rw [complete_clock]
  · exact ha

@[simp] theorem configureDomain_time (p : Part) (q : Fin 8) (hd : Header) (b : DomainBody) :
    (p.configureDomain q hd b).clock.time = p.clock.time := by
  rw [configureDomain_eq]
  exact answered_time hd _ (by simp)

@[simp] theorem loadSafeSequence_time (p : Part) (q : Fin 8) (hd : Header) (b : SequenceBody) :
    (p.loadSafeSequence q hd b).clock.time = p.clock.time := by
  unfold loadSafeSequence
  split <;> simp

@[simp] theorem armDomain_time (p : Part) (q : Fin 8) (hd : Header) (domain : BitVec 8) :
    (p.armDomain q hd domain).clock.time = p.clock.time := by
  rw [armDomain_eq]
  exact answered_time hd _ (by simp)

@[simp] theorem disarmDomain_time (p : Part) (q : Fin 8) (hd : Header) (domain : BitVec 8) :
    (p.disarmDomain q hd domain).clock.time = p.clock.time := by
  rw [disarmDomain_eq]
  exact answered_time hd _ (by split <;> simp)

@[simp] theorem tripDomain_time (p : Part) (q : Fin 8) (hd : Header) (domain : BitVec 8) :
    (p.tripDomain q hd domain).clock.time = p.clock.time := by
  rw [tripDomain_eq]
  exact answered_time hd _ (by simp)

@[simp] theorem releaseDomain_time (p : Part) (q : Fin 8) (hd : Header) (domain : BitVec 8) :
    (p.releaseDomain q hd domain).clock.time = p.clock.time := by
  rw [releaseDomain_eq]
  exact answered_time hd _ (congrArg Clock.time (moves_release (W := fun _ => True) trivial hd _).clock)

@[simp] theorem queryDomain_time (p : Part) (q : Fin 8) (hd : Header) (domain : BitVec 8) :
    (p.queryDomain q hd domain).clock.time = p.clock.time := by
  rw [queryDomain_eq]
  exact answered_time hd _ (by simp)

@[simp] theorem configureFaultInput_time (p : Part) (q : Fin 8) (hd : Header) (b : InputBody) :
    (p.configureFaultInput q hd b).clock.time = p.clock.time := by
  rw [configureFaultInput_eq]
  exact answered_time hd _ (by simp)

@[simp] theorem clearFaultLatch_time (p : Part) (q : Fin 8) (hd : Header) (input : BitVec 8) :
    (p.clearFaultLatch q hd input).clock.time = p.clock.time := by
  rw [clearFaultLatch_eq]
  exact answered_time hd _ (by simp)

@[simp] theorem configureSupervisor_time (p : Part) (q : Fin 8) (hd : Header) (b : SupervisorBody) :
    (p.configureSupervisor q hd b).clock.time = p.clock.time := by
  rw [configureSupervisor_eq]
  exact answered_time hd _ (by simp)

@[simp] theorem switchSource_time (p : Part) (source : Source) (reason : SourceReason) (after : SupervisorState) :
    (p.switchSource source reason after).clock.time = p.clock.time := by
  rw [(p.switchSource_keeps ..).1]

@[simp] theorem restorePrimaryClock_time (p : Part) (q : Fin 8) (hd : Header) :
    (p.restorePrimaryClock q hd).clock.time = p.clock.time := by
  rw [restorePrimaryClock_eq]
  refine answered_time hd _ ?_
  unfold restoredSource
  split <;> simp

/-! ### Arrivals -/

theorem owner_time (p : Part) (q : Fin 8) (hd : Header) (cmd : Command) :
    (p.owner q hd cmd).clock.time = p.clock.time := by
  cases cmd <;> simp [owner, readTime]

@[simp] theorem process_time (p : Part) (q : Fin 8) (hd : Header) (cmd : Command) :
    (p.process q hd cmd).clock.time = p.clock.time := by
  unfold process
  split
  · rw [complete_clock]
  · exact owner_time ..

@[simp] theorem freePath_clock (p : Part) : p.freePath.clock = p.clock := rfl

@[simp] theorem advanceHead_clock (p : Part) (q : Fin 8) : (p.advanceHead q).clock = p.clock := rfl

theorem arrival_time {cmd : Command} (h : p.arrival hd cmd = some p') : p'.clock.time = p.clock.time := by
  unfold arrival at h
  split at h
  · split at h <;> cases h <;> simp
  · cases h

theorem recordArrives_time {data : List Byte} (h : p.recordArrives data = some p') : p'.clock.time = p.clock.time := by
  unfold recordArrives at h
  split at h
  · exact arrival_time h
  · cases h

theorem listArrives_time {data : List Byte} (h : p.listArrives data = some p') : p'.clock.time = p.clock.time := by
  unfold listArrives at h
  split at h
  · split at h
    · split at h <;> cases h <;> simp
    · cases h
  · cases h

/-! ### Queues and the command path -/

@[simp] theorem completeHeld_clock (p : Part) (q : Fin 8) (held : Held) (status : Status) (aux : Nat) :
    (p.completeHeld q held status aux).clock = p.clock := by
  simp [completeHeld]

@[simp] theorem completeParked_clock (p : Part) (q : Fin 8) : (p.completeParked q).clock = p.clock := by
  unfold completeParked
  split <;> simp

@[simp] theorem discardFetch_clock (p : Part) (q : Fin 8) : (p.discardFetch q).clock = p.clock := by
  unfold discardFetch
  split
  · split <;> rfl
  · rfl

@[simp] theorem queueError_clock (p : Part) (q : Fin 8) (reason : QueueErrorReason) (index : Nat) (parked : Bool) :
    (p.queueError q reason index parked).clock = p.clock := by
  simp [queueError]

@[simp] theorem fetchFault_clock (p : Part) (q : Fin 8) (f : AccessFault) : (p.fetchFault q f).clock = p.clock := by
  simp [fetchFault]

theorem postTail_clock (target : BitVec 4) (index : BitVec 16) (p : Part) : (p.postTail target index).clock = p.clock := by
  unfold postTail
  split
  · rfl
  · split
    · rfl
    · split <;> simp

theorem resetQueue_clock (target : BitVec 4) (p : Part) : (p.resetQueue target).clock = p.clock := by
  unfold resetQueue
  split
  · rfl
  · simp

theorem grantTo_time (p : Part) (q : Fin 8) : (p.grantTo q).clock.time = p.clock.time := by
  have hmoved : (p.movePointer q).clock = p.clock := rfl
  unfold grantTo
  dsimp only
  split
  · rw [retry_time, hmoved]
  · unfold issueFetch
    dsimp only
    split
    · rfl
    · simp [hmoved]

theorem fetchGrant_time (h : p.fetchGrant = some p') : p'.clock.time = p.clock.time := by
  unfold fetchGrant at h
  split at h
  · obtain ⟨q, -, rfl⟩ := Option.map_eq_some_iff.1 h
    exact grantTo_time p q
  · cases h

theorem commandReadFault_clock (p : Part) (f : AccessFault) : (p.commandReadFault f).clock = p.clock := by
  unfold commandReadFault
  split
  · rfl
  · split <;> simp
  · split <;> simp

/-! ### The Posting Unit -/

@[simp] theorem endWrite_clock (p : Part) : p.endWrite.clock = p.clock := rfl

@[simp] theorem postCompletion_clock (p : Part) (n : Fin 4) : (p.postCompletion n).clock = p.clock := by
  unfold postCompletion
  dsimp only
  split <;> rfl

theorem completionWriteAnswered_clock (h : p.completionWriteAnswered = some p') : p'.clock = p.clock := by
  unfold completionWriteAnswered at h
  split at h
  · cases h
  · split at h
    · split at h <;> cases h <;> simp
    · cases h

theorem noticeWriteAnswered_clock (h : p.noticeWriteAnswered = some p') : p'.clock = p.clock := by
  unfold noticeWriteAnswered at h
  split at h
  · cases h
  · split at h
    · split at h <;> cases h <;> simp [postNotice, popWriteList]
    · cases h

theorem writeFault_clock (p : Part) (a : Access) (f : AccessFault) : (p.writeFault a f).clock = p.clock := by
  unfold writeFault
  split
  · rw [issueNext_clock, endWrite_clock]
  · rfl

theorem holdoffExpiry_clock {n : Fin 4} (h : p.holdoffExpiry n = some p') : p'.clock = p.clock := by
  unfold holdoffExpiry at h
  dsimp only at h
  split at h
  · cases h
    split <;> rfl
  · cases h

theorem movePending_clock (n : Nat) (p : Part) : (movePending n p).clock = p.clock := by
  induction n generalizing p with
  | zero => rfl
  | succ n ih =>
    unfold movePending
    split
    · rfl
    · split
      · rw [ih, joinWriteList_clock]
        rfl
      · rfl

theorem consume_clock (target : BitVec 4) (index : BitVec 16) (p : Part) : (p.consume target index).clock = p.clock := by
  unfold consume
  split
  · rfl
  split
  · unfold consumeCq
    dsimp only
    split <;> rfl
  split
  · unfold consumeRing
    dsimp only
    split
    · exact movePending_clock ..
    · rfl
  · rfl

/-! ### Engine Control -/

theorem softReset_time (p : Part) : p.softReset.clock.time = p.clock.time := by
  rw [softReset_eq]
  rfl

theorem controlWrite_time (operation : BitVec 4) (p : Part) : (p.controlWrite operation).clock.time = p.clock.time := by
  unfold controlWrite
  split
  · unfold controlStart
    split
    · dsimp only
      split <;> rfl
    · rfl
  · unfold controlHalt
    split
    · rw [clock_halt]
    · rfl
  · exact softReset_time p
  · rfl

theorem notifyWrite_clock (operation target : BitVec 4) (index : BitVec 16) (p : Part) :
    (p.notifyWrite operation target index).clock = p.clock := by
  unfold notifyWrite
  split
  · exact postTail_clock ..
  · exact consume_clock ..
  · exact resetQueue_clock ..
  · rfl

theorem registerWrite_time (offset : BitVec 8) (value : BitVec 32) (p : Part) :
    (p.registerWrite offset value).clock.time = p.clock.time := by
  unfold registerWrite
  split
  · exact controlWrite_time ..
  · rfl
  · rfl
  · rw [notifyWrite_clock]
  · rfl
  · rfl
  · rfl

theorem loadBlock_clock (p : Part) (b : Block) : (p.loadBlock b).clock = p.clock := by
  unfold loadBlock unforceEngine
  rw [modEngine_clock, foldl_keeps Part.clock _ fun p c => unforceChannel_clock p .engine c]
  rfl

theorem configurationBlockArrives_clock {data : List Byte} (h : p.configurationBlockArrives data = some p') :
    p'.clock = p.clock := by
  unfold configurationBlockArrives at h
  dsimp only at h
  split at h
  · split at h <;> cases h
    · exact loadBlock_clock ..
    · rfl
  · cases h

theorem accessFault_clock (p : Part) (owner : AccessOwner) (a : Access) (f : AccessFault) :
    (p.accessFault owner a f).clock = p.clock := by
  cases owner with
  | commandUnit | stepScheduler => exact commandReadFault_clock ..
  | postingUnit => exact writeFault_clock ..
  | engineControl => rfl

theorem accessTimeout_clock {owner : AccessOwner} (h : p.accessTimeout owner = some p') : p'.clock = p.clock := by
  unfold accessTimeout at h
  split at h
  · cases h
  · split at h <;> cases h
    exact accessFault_clock ..

theorem busErrorResponse_clock {owner : AccessOwner} (h : p.busErrorResponse owner = some p') : p'.clock = p.clock := by
  unfold busErrorResponse at h
  split at h <;> cases h
  exact accessFault_clock ..

/-! ### Samples, and the moments of the clock -/

theorem sampleEvent_clock {n : Fin 16} {pinHigh : Bool} (h : p.sampleEvent n pinHigh = some p') : p'.clock = p.clock := by
  unfold sampleEvent at h
  dsimp only at h
  split at h <;> cases h
  split
  · exact (moves_activate (W := fun _ => True) _ n).clock
  · rfl

theorem takeVerdict_time (p : Part) (v : Verdict) (count : Nat) (next : SupervisorWindow) :
    (p.takeVerdict v count next).clock.time = p.clock.time := by
  cases hs : p.clock.supervisor.state with
  | settling => rw [takeVerdict_settling hs, modSupervisor_time]
  | measuring =>
    by_cases hf : Fails p.clock.supervisor v
    · rw [takeVerdict_fails hs hf, ((p.judged v count next).failSupervisor_keeps).1]
      rfl
    · rw [takeVerdict_counted hs hf]
      rfl
  | disabled | failed => rw [takeVerdict, hs]

theorem refEdge_time (h : p.refEdge = some p') : p'.clock.time = p.clock.time := by
  unfold refEdge at h
  dsimp only at h
  repeat' split at h
  all_goals cases h
  · rfl
  · exact takeVerdict_time ..
  · rfl

theorem windowEnd_time (h : p.windowEnd = some p') : p'.clock.time = p.clock.time := by
  unfold windowEnd at h
  dsimp only at h
  repeat' split at h
  all_goals cases h
  exact takeVerdict_time ..

theorem referenceTimeout_time (h : p.referenceTimeout = some p') : p'.clock.time = p.clock.time := by
  unfold referenceTimeout at h
  dsimp only at h
  repeat' split at h
  all_goals cases h
  exact takeVerdict_time ..

theorem supervisorStopped_time (p : Part) : p.supervisorStopped.clock.time = p.clock.time := by
  by_cases hm : p.clock.supervisor.measures = true
  · rw [(supervisorStopped_failed hm).1]
  · rw [supervisorStopped_idle hm]

theorem primaryStop_time (h : p.primaryStop = some p') : p'.clock.time = p.clock.time := by
  unfold primaryStop at h
  split at h <;> cases h
  rw [supervisorStopped_time, switchSource_time]
  rfl

theorem primaryIndicationAbsent_time (h : p.primaryIndicationAbsent = some p') : p'.clock.time = p.clock.time := by
  unfold primaryIndicationAbsent at h
  split at h <;> cases h
  rfl

/-- R105: a tick counts the timebase up, or leaves it at its limit. -/
theorem timebaseTick_time (p : Part) : p.clock.time ≤ p.timebaseTick.clock.time := by
  have hbefore : p.endWaits.settle.clock = p.clock := (settle_clock _).trans (endWaits_clock p)
  have htick : p.timebaseTick.clock.time = countTo maxTime p.endWaits.settle.clock.time := rfl
  rw [htick, hbefore, countTo]
  split
  · exact Nat.le_succ _
  · exact le_rfl

end Part

/-- R105: the effect of a command that is no tick leaves the timebase. -/
theorem effect_time {i : Instr} {p p' : Part} (hi : i ≠ .timebaseTick) (h : effect i p = some p') :
    p'.clock.time = p.clock.time := by
  cases i
  case timebaseTick => exact absurd rfl hi
  case hardReset | resetnNegated | intCauseWrite | intEnableWrite | lateAnswer | tclkEdge => cases h; rfl
  case start | halt | softReset | unknownControlOperation =>
    exact (congrArg (fun p => p.clock.time) (Option.some.inj h)).symm.trans (Part.controlWrite_time ..)
  case postTail | resetQueue | consume | unrecognisedNotifyOperation =>
    exact congrArg Clock.time ((congrArg Part.clock (Option.some.inj h)).symm.trans (Part.notifyWrite_clock ..))
  case registerWrite =>
    exact (congrArg (fun p => p.clock.time) (Option.some.inj h)).symm.trans (Part.registerWrite_time ..)
  case dueTimeEvent =>
    exact congrArg Clock.time (Part.moves_dueTimeEvent (W := fun _ => True) _ _ h).clock
  case deadTimeExpiry =>
    exact congrArg Clock.time (Part.moves_deadTimeExpiry (W := fun _ => True) _ h).clock
  case safeSequenceEntryDue =>
    exact congrArg Clock.time (Part.moves_safeSequenceEntryDue (W := fun _ => True) _ _ h).clock
  case sampleEvent => exact congrArg Clock.time (Part.sampleEvent_clock h)
  case primaryStop => exact Part.primaryStop_time h
  case windowEnd => exact Part.windowEnd_time h
  case referenceTimeout => exact Part.referenceTimeout_time h
  case holdoffExpiry => exact congrArg Clock.time (Part.holdoffExpiry_clock h)
  case fetchGrant => exact Part.fetchGrant_time h
  case recordArrives => exact Part.recordArrives_time h
  case listArrives => exact Part.listArrives_time h
  case completionWriteAnswered => exact congrArg Clock.time (Part.completionWriteAnswered_clock h)
  case noticeWriteAnswered => exact congrArg Clock.time (Part.noticeWriteAnswered_clock h)
  case configurationBlockArrives => exact congrArg Clock.time (Part.configurationBlockArrives_clock h)
  case accessTimeout => exact congrArg Clock.time (Part.accessTimeout_clock h)
  case busErrorResponse => exact congrArg Clock.time (Part.busErrorResponse_clock h)
  case refEdge => exact Part.refEdge_time h
  case primaryIndicationAbsent => exact Part.primaryIndicationAbsent_time h
  all_goals exact Part.arrival_time h

/-- What a command other than the two of RESETn leaves: the part as it was, or the command's effect, settled. -/
theorem exec_part {i : Instr} {s s' : State} (h1 : i ≠ .hardReset) (h2 : i ≠ .resetnNegated) (h : exec i s = .next s') :
    s'.part = s.part ∨ ∃ p, effect i s.part = some p ∧ s'.part = p.settle := by
  rw [exec_eq_event h1 h2] at h
  unfold event at h
  split at h
  · cases h
    exact .inl rfl
  · split at h
    · cases h
      exact .inl rfl
    · cases h
      exact .inr ⟨_, ‹_›, rfl⟩

/-- R105: a command that is neither a tick nor a hard reset leaves the timebase. -/
theorem exec_time {i : Instr} {s s' : State} (hi : i ≠ .hardReset) (ht : i ≠ .timebaseTick) (h : exec i s = .next s') :
    s'.part.clock.time = s.part.clock.time := by
  by_cases hn : i = .resetnNegated
  · subst hn
    cases h
    rfl
  rcases exec_part hi hn h with e | ⟨p, hp, e⟩
  · rw [e]
  · rw [e, Part.settle_clock, effect_time ht hp]

/-- Settles O50: the tick counts up, and every other command leaves the timebase. -/
theorem timeNeverDecreases : Obligations.TimeNeverDecreases := by
  intro i s s' hi h
  by_cases ht : i = .timebaseTick
  · subst ht
    refine ⟨?_, fun hne => absurd rfl hne⟩
    rcases exec_part hi (by simp) h with e | ⟨p, hp, e⟩
    · rw [e]
    · obtain rfl := Option.some.inj hp
      rw [e, Part.settle_clock]
      exact s.part.timebaseTick_time
  · have htime := exec_time hi ht h
    exact ⟨htime.ge, fun _ => htime⟩

end Sys2Proof.Machine
end

section
/-!
The register writes that Engine Control refuses and the queues and rings reject (R129, R157, R182, R183, R195).
-/

namespace Sys2Proof.Machine

namespace Part

variable {p : Part}

/-! ### Refused CONTROL writes -/

theorem startAccepted_iff : p.startAccepted = true ↔ p.engine.state = .off ∨ p.engine.state = .halted := by
  simp only [startAccepted, Bool.or_eq_true, beq_iff_eq]

theorem controlStart_refused (ho : p.engine.state ≠ .off) (hh : p.engine.state ≠ .halted) :
    p.controlStart = p.refuseControl .start :=
  if_neg fun h => (startAccepted_iff.1 h).elim ho hh

theorem controlHalt_refused (h : p.engine.state ≠ .running) : p.controlHalt = p.refuseControl .halt := if_neg h

theorem controlWrite_unknown {operation : BitVec 4} (h1 : operation ≠ 1) (h2 : operation ≠ 2) (h3 : operation ≠ 3) :
    p.controlWrite operation = p.refuseControl .unknown := by
  unfold controlWrite
  split
  · exact absurd (BitVec.eq_of_toNat_eq ‹_›) h1
  · exact absurd (BitVec.eq_of_toNat_eq ‹_›) h2
  · exact absurd (BitVec.eq_of_toNat_eq ‹_›) h3
  · rfl

/-! ### Rejected NOTIFY writes -/

theorem notifyWrite_unrecognised {operation : BitVec 4} (h1 : operation ≠ 1) (h2 : operation ≠ 2) (h3 : operation ≠ 3)
    (target : BitVec 4) (index : BitVec 16) : p.notifyWrite operation target index = p.rejectNotify := by
  unfold notifyWrite
  split
  · exact absurd (BitVec.eq_of_toNat_eq ‹_›) h1
  · exact absurd (BitVec.eq_of_toNat_eq ‹_›) h2
  · exact absurd (BitVec.eq_of_toNat_eq ‹_›) h3
  · rfl

theorem finOfNat_of_lt {n m : Nat} [NeZero n] (h : m < n) : Fin.ofNat n m = ⟨m, h⟩ := Fin.ext (Nat.mod_eq_of_lt h)

/-- R129: the queue that POST TAIL and RESET QUEUE reach. -/
theorem notifyReaches_eq (p : Part) (target : BitVec 4) : p.notifyReaches target =
    if target.toNat < 8 ∧ p.engine.state = .running ∧ (p.queue (Fin.ofNat 8 target.toNat)).state ≠ .disabled
    then some (Fin.ofNat 8 target.toNat) else none := by
  unfold notifyReaches
  by_cases h : target.toNat < 8
  · simp only [h, dif_pos, true_and, finOfNat_of_lt]
  · rw [dif_neg h, if_neg fun hh => h hh.1]

theorem notifyReaches_none {target : BitVec 4} (h : 8 ≤ target.toNat ∨ p.engine.state ≠ .running ∨
    (p.queue (Fin.ofNat 8 target.toNat)).state = .disabled) : p.notifyReaches target = none := by
  rw [notifyReaches_eq, if_neg]
  rintro ⟨ht, hr, hd⟩
  rcases h with h | h | h
  · exact Nat.not_lt.2 h ht
  · exact h hr
  · exact hd h

theorem postTail_unreached {target : BitVec 4} (h : p.notifyReaches target = none) (index : BitVec 16) :
    p.postTail target index = p.rejectNotify := by
  unfold postTail
  rw [h]

theorem postTail_reached {target : BitVec 4} {q : Fin 8} (h : p.notifyReaches target = some q) (index : BitVec 16) :
    p.postTail target index =
      if (p.queue q).state = .error then p.rejectNotify
      else if index.toNat < (p.queue q).size then p.modQueue q fun x => { x with tail := index.toNat }
      else ((p.completeParked q).discardFetch q).queueError q .badTail index.toNat (p.queue q).hold.isSome := by
  unfold postTail
  rw [h]

theorem postTail_rejected {target : BitVec 4} (h : 8 ≤ target.toNat ∨ p.engine.state ≠ .running ∨
    (p.queue (Fin.ofNat 8 target.toNat)).state = .disabled ∨ (p.queue (Fin.ofNat 8 target.toNat)).state = .error)
    (index : BitVec 16) : p.postTail target index = p.rejectNotify := by
  cases hq : p.notifyReaches target with
  | none => exact postTail_unreached hq index
  | some q =>
    obtain ⟨⟨ht, hr, hd⟩, hq'⟩ := Option.ite_none_right_eq_some.1 ((notifyReaches_eq p target).symm.trans hq)
    cases hq'
    have he : (p.queue (Fin.ofNat 8 target.toNat)).state = .error :=
      ((h.resolve_left (Nat.not_le.2 ht)).resolve_left (not_not_intro hr)).resolve_left hd
    rw [postTail_reached hq, if_pos he]

theorem resetQueue_unreached {target : BitVec 4} (h : p.notifyReaches target = none) :
    p.resetQueue target = p.rejectNotify := by
  unfold resetQueue
  rw [h]

theorem resetQueue_reached {target : BitVec 4} {q : Fin 8} (h : p.notifyReaches target = some q) : p.resetQueue target =
    ((p.completeParked q).discardFetch q).modQueue q fun x => { x with head := 0, tail := 0, state := .active } := by
  unfold resetQueue
  rw [h]

theorem consumeAccepted_iff : p.consumeAccepted = true ↔
    p.engine.state = .running ∨ p.engine.state = .halting ∨ p.engine.state = .halted := by
  unfold consumeAccepted
  cases p.engine.state <;> simp

/-- R157: an index of a completion queue that CONSUME does not take. -/
theorem consumeCq_rejected {n : Fin 4} {index : Nat} (h : (p.cq n).enabled = false ∨ (p.cq n).size ≤ index ∨
    (p.cq n).occupied < ringDistance (p.cq n).size (p.cq n).head index) : p.consumeCq n index = p.rejectNotify := by
  refine if_neg ?_
  simp only [Bool.and_eq_true, decide_eq_true_eq, not_and_or, Bool.not_eq_true, Nat.not_lt, Nat.not_le]
  exact or_assoc.2 h

/-- R157: an index of the notice ring that CONSUME does not take. -/
theorem consumeRing_rejected {index : Nat} (h : p.posting.ring.enabled = false ∨ p.posting.ring.size ≤ index ∨
    p.posting.ring.occupied < ringDistance p.posting.ring.size p.posting.ring.head index) :
    p.consumeRing index = p.rejectNotify := by
  refine if_neg ?_
  simp only [Bool.and_eq_true, decide_eq_true_eq, not_and_or, Bool.not_eq_true, Nat.not_lt, Nat.not_le]
  exact or_assoc.2 h

/-- R157, R195: CONSUME by its target. -/
theorem consume_eq (p : Part) (target : BitVec 4) (index : BitVec 16) : p.consume target index =
    if ¬p.consumeAccepted = true then p.rejectNotify
    else if target.toNat < 4 then p.consumeCq (Fin.ofNat 4 target.toNat) index.toNat
    else if target.toNat = 8 then p.consumeRing index.toNat
    else p.rejectNotify := by
  unfold consume
  refine if_congr (by simp) rfl ?_
  by_cases h : target.toNat < 4
  · rw [dif_pos h, if_pos h, finOfNat_of_lt h]
  · rw [dif_neg h, if_neg h]

end Part

/-! ### The events of refused and rejected writes -/

section

variable {i : Instr} {s : State} (hr : s.part.resetAsserted = false) (hs : s.part.settled = true)
include hr hs

/-- R183: a refused CONTROL write ends its event with the last refused operation alone changed. -/
theorem refused_takes {operation : BitVec 4} {refused : LastRefused}
    (hi : exec i s = event (fun p => some (p.controlWrite operation)) s)
    (h : s.part.controlWrite operation = s.part.refuseControl refused) : takes i s (s.part.refuseControl refused) :=
  takes_of_settled hi hr (congrArg some h) hs

/-- R129, R157, R182: a rejected NOTIFY write ends its event with the NOTIFY REJECTED cause alone changed. -/
theorem rejected_takes {operation target : BitVec 4} {index : BitVec 16}
    (hi : exec i s = event (fun p => some (p.notifyWrite operation target index)) s)
    (h : s.part.notifyWrite operation target index = s.part.rejectNotify) : takes i s s.part.rejectNotify :=
  takes_of_settled hi hr (congrArg some h) hs

end

/-- Settles O6: each refused CONTROL write, and each NOTIFY operation by the reasons to reject it. -/
theorem registerWriteRefused : Obligations.RegisterWriteRefused := by
  refine ⟨fun s hr hs => ⟨fun ho hh => ?_, fun hn => ?_, fun operation h1 h2 h3 => ?_⟩,
    fun s target index hr hs => ⟨fun h => ?_, fun h => ?_, fun h => ?_, fun operation h1 h2 h3 => ?_⟩⟩
  · exact refused_takes (i := .start) hr hs rfl (Part.controlStart_refused ho hh)
  · exact refused_takes (i := .halt) hr hs rfl (Part.controlHalt_refused hn)
  · exact refused_takes (i := .unknownControlOperation operation) hr hs rfl (Part.controlWrite_unknown h1 h2 h3)
  · exact rejected_takes (i := .postTail target index) hr hs rfl (Part.postTail_rejected h index)
  · exact rejected_takes (i := .resetQueue target) hr hs rfl (Part.resetQueue_unreached (Part.notifyReaches_none h))
  · refine rejected_takes (i := .consume target index) hr hs rfl
      ((Part.consume_eq s.part target index).trans ?_)
    rcases h with hp | ⟨h4, h8⟩ | ⟨h4, h⟩ | ⟨h8, h⟩
    · exact if_pos fun ha => hp (Part.consumeAccepted_iff.1 ha)
    · rw [if_neg (Nat.not_lt.2 h4), if_neg h8, ite_self]
    · rw [if_pos h4, Part.consumeCq_rejected h, ite_self]
    · rw [if_neg (c := target.toNat < 4) (by omega), if_pos h8, Part.consumeRing_rejected h, ite_self]
  · exact rejected_takes (i := .unrecognisedNotifyOperation operation target index) hr hs rfl
      (Part.notifyWrite_unrecognised h1 h2 h3 target index)

end Sys2Proof.Machine
end

section
/-!
The queue notifications that are taken (R128, R130, R144, R145).
-/

namespace Sys2Proof.Machine

namespace Part

variable {p : Part}

theorem modQueue_congr {q : Fin 8} {f g : QueueContext → QueueContext} (h : f (p.queue q) = g (p.queue q)) :
    p.modQueue q f = p.modQueue q g := by
  have hu : updateAt p.command.queues q f = updateAt p.command.queues q g :=
    congrArg (fun x => p.command.queues.set q.val x q.isLt) h
  exact congrArg (fun v => { p with command := { p.command with queues := v } }) hu

theorem queue_of_command {p' : Part} (h : p'.command = p.command) (q : Fin 8) : p'.queue q = p.queue q :=
  congrArg (fun u : CommandUnit => u.queues[q]) h

/-- The parked command leaves the hold slot, and the queue keeps the rest (R144). -/
theorem queue_completeParked (p : Part) (q : Fin 8) :
    (p.completeParked q).queue q = { p.queue q with hold := none } := by
  unfold completeParked
  split
  · rename_i h
    rw [← h]
  · unfold completeHeld
    rw [queue_of_command (complete_command ..), queue_modQueue, if_pos rfl]

/-- R130, R145: a fetch of the queue is marked discarded, and another read is left as it is. -/
theorem discardFetch_eq (p : Part) (q : Fin 8) : p.discardFetch q = p.modCommand fun u =>
    { u with path := if pathQueueOfFetch u.path = some q then .fetch q true else u.path } := by
  have hkeep {x : CommandPath} (h : x = p.command.path) : p = p.setPath x := by rw [h]; rfl
  show p.discardFetch q =
    p.setPath (if pathQueueOfFetch p.command.path = some q then .fetch q true else p.command.path)
  unfold discardFetch
  cases hp : p.command.path with
  | free => exact hkeep hp.symm
  | list r h d => exact hkeep hp.symm
  | fetch r d =>
    by_cases hr : r = q
    · simp [pathQueueOfFetch, hr]
    · simpa [pathQueueOfFetch, hr] using hkeep hp.symm

theorem queue_discardFetch (p : Part) (q q' : Fin 8) : (p.discardFetch q).queue q' = p.queue q' := by
  rw [discardFetch_eq]
  rfl

/-- R145: the queue that is in ERROR has kept its head and its tail, which the notice reports. -/
theorem queueError_discarded (p : Part) (q : Fin 8) (reason : QueueErrorReason) (index : Nat) (parked : Bool) :
    ((p.completeParked q).discardFetch q).queueError q reason index parked =
      (((p.completeParked q).discardFetch q).modQueue q fun x => { x with state := .error }).notify
        (.queueError q reason (p.queue q).head (p.queue q).tail index parked) := by
  unfold queueError
  dsimp only
  rw [queue_discardFetch, queue_completeParked]

/-- R130: the hold slot of a queue that is reset is empty. -/
theorem modQueue_discarded (p : Part) (q : Fin 8) :
    (((p.completeParked q).discardFetch q).modQueue q fun x => { x with head := 0, tail := 0, state := .active }) =
      ((p.completeParked q).discardFetch q).modQueue q fun x =>
        { x with head := 0, tail := 0, state := .active, hold := none } := by
  refine modQueue_congr ?_
  rw [queue_discardFetch, queue_completeParked]

/-- A queue's own number as the target of a NOTIFY write. -/
theorem notifyReaches_queue {q : Fin 8} (hr : p.engine.state = .running) (hd : (p.queue q).state ≠ .disabled) :
    p.notifyReaches (BitVec.ofNat 4 q.val) = some q := by
  have ht : (BitVec.ofNat 4 q.val).toNat = q.val := by rw [BitVec.toNat_ofNat]; omega
  rw [notifyReaches_eq, ht, finOfNat_of_lt q.isLt]
  exact if_pos ⟨q.isLt, hr, hd⟩

end Part

/-- An event takes the machine to its effect, after which Engine Control does its part. -/
theorem takes_settle {i : Instr} {f : Part → Option Part} {s : State} {p : Part} (hi : exec i s = event f s)
    (hr : s.part.resetAsserted = false) (hp : f s.part = some p) : takes i s p.settle :=
  hi.trans (event_some hr hp)

theorem exec_postTail (target : BitVec 4) (index : BitVec 16) (s : State) :
    exec (.postTail target index) s = event (fun p => some (p.postTail target index)) s := rfl

theorem exec_resetQueue (target : BitVec 4) (s : State) :
    exec (.resetQueue target) s = event (fun p => some (p.resetQueue target)) s := rfl

/-- Settles O15: the queue is reached; what POST TAIL does with the index, and RESET QUEUE with the parked command. -/
theorem queueNotifications : Obligations.QueueNotifications := by
  refine ⟨fun s q index hr hf hrun ha => ?_, fun s q hr hrun hd => ?_⟩
  · have hn : s.part.notifyReaches (BitVec.ofNat 4 q.val) = some q :=
      Part.notifyReaches_queue hrun (by rcases ha with h | h <;> simp [h])
    have ht := takes_settle (exec_postTail (BitVec.ofNat 4 q.val) index s) hr rfl
    rw [Part.postTail_reached hn, if_neg (by rcases ha with h | h <;> simp [h])] at ht
    refine ⟨fun hin => ?_, fun hout => ?_⟩
    · rw [if_pos hin, Part.settle_running (p := s.part.modQueue q _) hf hrun] at ht
      exact ht
    · rw [if_neg (Nat.not_lt.2 hout), Part.queueError_discarded, Part.discardFetch_eq] at ht
      exact ht
  · have ht := takes_settle (exec_resetQueue (BitVec.ofNat 4 q.val) s) hr rfl
    rw [Part.resetQueue_reached (Part.notifyReaches_queue hrun hd), Part.modQueue_discarded, Part.discardFetch_eq] at ht
    exact ht

end Sys2Proof.Machine
end

section
/-!
A Configuration Block that passes every test is loaded (R126, R150, R160, R171, R187).
-/

namespace Sys2Proof.Machine

namespace Part

/-- The channels of a list are unforced where they are forced for the reason, with their levels and requests kept (R31). -/
theorem channel_unforceAll (reason : ForceReason) (l : List (Fin 32)) (p : Part) (c : Fin 32) :
    (l.foldl (fun p c => p.unforceChannel reason c) p).channel c =
      if c ∈ l ∧ (p.channel c).force = some reason then { p.channel c with force := none } else p.channel c := by
  induction l generalizing p with
  | nil => simp
  | cons x l ih =>
    rw [List.foldl_cons, ih, unforceChannel, channel_modChannel]
    by_cases hc : c = x
    · subst hc
      by_cases hf : (p.channel c).force = some reason <;> simp [hf]
    · simp [hc]

/-- Unforcing changes nothing but channel records. -/
theorem unforceAll_rest (reason : ForceReason) (l : List (Fin 32)) (p : Part) :
    let p' := l.foldl (fun p c => p.unforceChannel reason c) p
    p' = { p with output := { p.output with channels := p'.output.channels } } := by
  induction l generalizing p with
  | nil => rfl
  | cons x l ih => exact ih (p.unforceChannel reason x)

/-- R187 part 4: a channel forced by Engine Control is unforced. -/
theorem channel_unforceEngine (p : Part) (c : Fin 32) : p.unforceEngine.channel c =
    if (p.channel c).force = some .engine then { p.channel c with force := none } else p.channel c :=
  (channel_unforceAll .engine (List.finRange 32) p c).trans
    (if_congr (and_iff_right (List.mem_finRange c)) rfl rfl)

/-- The part after a valid block's contexts and windows are loaded, and before the channels are unforced (R187). -/
def contextsLoaded (p : Part) (b : Block) : Part :=
  { p with
    monitor := { p.monitor with block := none, windows := b.windows.map WindowEntry.window, timeout := b.timeout }
    command := { queues := b.queues.map QueueEntry.context, path := .free, urgentPointer := 7, normalPointer := 7 }
    posting := { p.posting with
      cqs := b.cqs.map CompletionEntry.context, ring := b.ring, writeList := [], restore := none } }

theorem loadBlock_eq (p : Part) (b : Block) : p.endBlockRead.loadBlock b =
    (p.contextsLoaded b).unforceEngine.modEngine fun e => { e with state := .running } := rfl

/-- What loading a valid block leaves, the channels apart. -/
theorem loadBlock_rest (p : Part) (b : Block) : p.endBlockRead.loadBlock b =
    { p.contextsLoaded b with
      engine := { p.engine with state := .running }
      output := { p.output with channels := (p.contextsLoaded b).unforceEngine.output.channels } } := by
  rw [loadBlock_eq]
  exact congrArg (fun p => p.modEngine fun e => { e with state := .running }) (unforceAll_rest .engine _ _)

theorem channel_loadBlock (p : Part) (b : Block) (c : Fin 32) : (p.endBlockRead.loadBlock b).channel c =
    if (p.channel c).force = some .engine then { p.channel c with force := none } else p.channel c := by
  rw [loadBlock_eq, channel_of_output (modEngine_output ..), channel_unforceEngine]
  rfl

theorem queue_contextsLoaded (p : Part) (b : Block) (q : Fin 8) :
    (p.contextsLoaded b).queue q = b.queues[q].context := by
  simp [queue, contextsLoaded]

theorem cq_contextsLoaded (p : Part) (b : Block) (n : Fin 4) : (p.contextsLoaded b).cq n = b.cqs[n].context := by
  simp [cq, contextsLoaded]

theorem configurationBlockArrives_valid {p : Part} {data : List Byte} (hb : p.monitor.block.isSome = true)
    (hl : data.length = 384) (hv : (readBlock data).loadFault = .none) :
    p.configurationBlockArrives data = some (p.endBlockRead.loadBlock (readBlock data)) := by
  unfold configurationBlockArrives
  rw [if_pos (by simp [hb, hl])]
  dsimp only
  rw [hv]

end Part

theorem exec_configurationBlockArrives (data : List Byte) (s : State) :
    exec (.configurationBlockArrives data) s = event (Part.configurationBlockArrives data) s := rfl

/-- Settles O10: the parts the block loads, and the channels it unforces. -/
theorem validBlockIsLoaded : Obligations.ValidBlockIsLoaded := by
  intro s data hr hf hb hl hv
  have ht := takes_settle (exec_configurationBlockArrives data s) hr (Part.configurationBlockArrives_valid hb hl hv)
  have hrest := Part.loadBlock_rest s.part (readBlock data)
  rw [Part.settle_running (by rw [hrest]; exact hf) (by rw [hrest])] at ht
  have hch := Part.channel_loadBlock s.part (readBlock data)
  rw [hrest] at ht hch
  generalize readBlock data = b at ht hch ⊢
  exact ⟨_, ht, rfl, rfl, Part.queue_contextsLoaded s.part b, ⟨rfl, rfl, rfl⟩, Part.cq_contextsLoaded s.part b, rfl, rfl,
    rfl, rfl, hch, rfl⟩

end Sys2Proof.Machine
end

section
/-!
The arrival of a record: the row of its kind byte and the common checks (R136, R139, R140, R197).
-/

namespace Sys2Proof.Machine

/-! ### The kind byte -/

/-- A field of one byte is less than 256. -/
theorem field_byte_lt (data : List Byte) (offset : Nat) : field data offset 1 < 256 := by
  unfold field
  cases data.drop offset with
  | nil => decide
  | cons b l => simpa [leNumber] using b.isLt

/-- R197: a kind byte that is none of the twenty. -/
theorem readCommand_unknown {data : List Byte} (h : field data 0 1 = 0 ∨ 0x14 < field data 0 1) :
    readCommand data = .unknownKind (BitVec.ofNat 8 (field data 0 1)) := by
  unfold readCommand
  split
  on_goal 21 => rfl
  all_goals omega

/-- A record's arrival is the row whose header and command its bytes spell (log 7). -/
theorem exec_recordArrives {data : List Byte} {i : Instr} {h : Header} {cmd : Command} (hl : data.length = 64)
    (hi : i.record? = some (h, cmd)) (hh : readHeader data = h) (hc : readCommand data = cmd) (s : State) :
    exec (.recordArrives data) s = exec i s := by
  subst hh hc
  have hf : Part.recordArrives data = Part.arrival (readHeader data) (readCommand data) := funext fun p => if_pos hl
  rw [exec_fetched hi, ← hf]
  rfl

/-! ### The common checks -/

namespace Part

variable {p : Part} {q : Fin 8}

/-- R140: the queue lacks the class of the command. -/
theorem commonRefusal_noAuthority {cmd : Command} {cls : Fin 4} (hc : authorityClass cmd = some cls)
    (ha : (p.queue q).authority.getLsbD cls.val = false) :
    p.commonRefusal q cmd = some (.noAuthority, cls.val + 1) := by
  unfold commonRefusal
  split
  · cases hc
  · rw [hc]
    simp only [ha, Bool.false_eq_true, if_false]

/-- R139: a command that the common checks refuse is completed, and nothing else is done with it. -/
theorem process_refused {cmd : Command} {status : Status} {aux : Nat} (h : p.commonRefusal q cmd = some (status, aux))
    (hd : Header) : p.process q hd cmd = p.complete q hd status aux := by
  unfold process
  rw [h]

theorem ready_complete_fault (hr : p.ready q = true) (hd : Header) (status : Status) (aux : Nat) :
    ((p.taken q).complete q hd status aux).posting.fault = none :=
  ((ready_calm hr).complete (ready_owes hr) hd status aux).fault

theorem ready_complete_running (hr : p.ready q = true) (hd : Header) (status : Status) (aux : Nat) :
    ((p.taken q).complete q hd status aux).engine.state = .running := by
  rw [complete_engine]
  exact ready_running hr

end Part

/-- A fetched command that the common checks refuse. -/
theorem refused_command_takes {i : Instr} {h : Header} {cmd : Command} {s : State} {q : Fin 8} {status : Status} {aux : Nat}
    (hi : i.record? = some (h, cmd)) (hr : s.part.ready q = true)
    (hx : (s.part.taken q).commonRefusal q cmd = some (status, aux)) :
    takes i s ((s.part.taken q).complete q h status aux) :=
  ready_takes hi hr (Part.process_refused hx h) (Part.ready_complete_fault hr ..) (Part.ready_complete_running hr ..)

/-- A record whose kind byte is none of the twenty is completed BAD KIND. -/
theorem badKind_takes {data : List Byte} {s : State} {q : Fin 8} (hl : data.length = 64) (hr : s.part.ready q = true)
    (hk : field data 0 1 = 0 ∨ 0x14 < field data 0 1) :
    takes (.recordArrives data) s ((s.part.taken q).complete q (readHeader data) .badKind (field data 0 1)) := by
  obtain ⟨hfetching, -⟩ := Part.ready_iff.1 hr
  have hx : (s.part.taken q).commonRefusal q (readCommand data) = some (.badKind, field data 0 1) := by
    rw [readCommand_unknown hk]
    exact congrArg (fun n => some (Status.badKind, n)) (Nat.mod_eq_of_lt (field_byte_lt data 0))
  have harr : s.part.recordArrives data =
      some ((s.part.taken q).complete q (readHeader data) .badKind (field data 0 1)) := by
    rw [← Part.process_refused hx, ← Part.arrival_fetching hfetching]
    exact if_pos hl
  have ht := takes_settle (i := .recordArrives data) rfl (Part.fetching_iff.1 hfetching).1 harr
  rwa [Part.settle_running (Part.ready_complete_fault hr ..) (Part.ready_complete_running hr ..)] at ht

/-- Settles O19: each kind byte's row, the records of no kind, and the authority classes. -/
theorem commonChecks : Obligations.CommonChecks := by
  refine ⟨fun s data hl => ⟨?_, fun q hr hk => badKind_takes hl hr hk⟩, fun i h cmd s q hi hr cls hcls ha => ?_⟩
  · intro byte half word long h spells
    refine ⟨?_, ?_, ?_, ?_, ?_, ?_, ?_, ?_, ?_, ?_, ?_, ?_, ?_, ?_, ?_, ?_, ?_, ?_, ?_, ?_⟩
    all_goals exact fun hk => exec_recordArrives hl rfl rfl (by rw [readCommand, hk]; rfl) s
  · have hclass : authorityClass cmd = some cls := by
      split at hcls
      on_goal 12 => exact hcls.elim
      all_goals exact congrArg some hcls.symm
    refine refused_command_takes hi hr (Part.commonRefusal_noAuthority hclass ?_)
    rwa [Part.authority_taken]

end Sys2Proof.Machine
end

section
/-!
The reads of the command path that end without being processed (R137, R138, R142, R147, R176, R177).
-/

namespace Sys2Proof.Machine

namespace Part

variable {p : Part} {q : Fin 8} {h : Header} {discarded : Bool}

theorem accessOf_fetch (hp : p.command.path = .fetch q discarded) :
    p.accessOf .commandUnit = p.monitor.command := by
  unfold accessOf
  rw [hp]
  exact if_pos rfl

theorem accessOf_list (hp : p.command.path = .list q h discarded) :
    p.accessOf .stepScheduler = p.monitor.command := by
  unfold accessOf
  rw [hp]
  exact if_pos rfl

theorem commandReadFault_fetch (hp : p.command.path = .fetch q discarded) (f : AccessFault) : p.commandReadFault f =
    if discarded then p.freePath.returnCredit (p.queue q).cq else p.freePath.fetchFault q f := by
  unfold commandReadFault
  rw [hp]

theorem commandReadFault_list (hp : p.command.path = .list q h discarded) (f : AccessFault) : p.commandReadFault f =
    if discarded then p.freePath else p.freePath.complete q h .accessFault f.aux := by
  unfold commandReadFault
  rw [hp]

/-- R138: the answer to a discarded fetch returns its credit, whatever record it brings. -/
theorem arrival_discarded (hp : p.command.path = .fetch q true) (hd : Header) (cmd : Command) :
    p.arrival hd cmd = some (p.freePath.returnCredit (p.queue q).cq) := by
  unfold arrival
  rw [hp]
  rfl

/-- R142: a discarded list is dropped unexamined. -/
theorem listArrives_discarded {a : Access} (hp : p.command.path = .list q h true) (ha : p.monitor.command = some a)
    {data : List Byte} (hl : data.length = a.length) : p.listArrives data = some p.freePath := by
  unfold listArrives
  rw [hp, ha]
  exact if_pos hl

end Part

/-- How a command read ends in a fault: by a bus error response, or by a timeout. -/
def faultOf (busError : Bool) : AccessFault := if busError then .busError else .timeout

/-- R176 to R178: the read of an owner ends in a bus error, or in a timeout if its timer has reached its limit. -/
theorem accessFault_takes {s : State} {a : Access} {owner : AccessOwner} {busError : Bool}
    (hr : s.part.resetAsserted = false) (ha : s.part.accessOf owner = some a) (hd : busError = false → a.limit ≤ a.timer) :
    takes (if busError then .busErrorResponse owner else .accessTimeout owner) s
      (s.part.accessFault owner a (faultOf busError)).settle := by
  cases busError with
  | true =>
    refine takes_settle (i := .busErrorResponse owner) (f := Part.busErrorResponse owner) rfl hr ?_
    unfold Part.busErrorResponse
    rw [ha]
    rfl
  | false =>
    refine takes_settle (i := .accessTimeout owner) (f := Part.accessTimeout owner) rfl hr ?_
    unfold Part.accessTimeout
    rw [ha]
    exact if_pos (hd rfl)

section

variable {s : State} {a : Access} {busError : Bool} (hr : s.part.resetAsserted = false)
  (ha : s.part.monitor.command = some a) (hd : busError = false → a.limit ≤ a.timer)
include hr ha hd

/-- A record fetch that ends in a fault. -/
theorem fetchFault_takes {q : Fin 8} {discarded : Bool} (hp : s.part.command.path = .fetch q discarded) :
    takes (if busError then .busErrorResponse .commandUnit else .accessTimeout .commandUnit) s
      (if discarded then s.part.freePath.returnCredit (s.part.queue q).cq
       else s.part.freePath.fetchFault q (faultOf busError)).settle := by
  rw [← Part.commandReadFault_fetch hp]
  exact accessFault_takes hr ((Part.accessOf_fetch hp).trans ha) hd

/-- A step list read that ends in a fault. -/
theorem listFault_takes {q : Fin 8} {h : Header} {discarded : Bool} (hp : s.part.command.path = .list q h discarded) :
    takes (if busError then .busErrorResponse .stepScheduler else .accessTimeout .stepScheduler) s
      (if discarded then s.part.freePath else s.part.freePath.complete q h .accessFault (faultOf busError).aux).settle := by
  rw [← Part.commandReadFault_list hp]
  exact accessFault_takes hr ((Part.accessOf_list hp).trans ha) hd

end

/-- R177: an answer that names no access in flight is discarded, and while RESETn is asserted nothing is taken at all. -/
theorem lateAnswer_takes {s : State} (hs : s.part.settled = true) : takes .lateAnswer s s.part := by
  cases hr : s.part.resetAsserted with
  | true => exact if_pos hr
  | false => exact takes_of_settled (i := .lateAnswer) rfl hr rfl hs

/-- Settles O20: the ends of a discarded fetch and a discarded list, the faults of a live one, and a late answer. -/
theorem readsThatEndWithoutTheirData : Obligations.ReadsThatEndWithoutTheirData := by
  refine ⟨fun s a i hr ha => ⟨fun q hp hi => ?_, fun q h hp hi => ?_⟩,
    fun s a q busError hr ha hd => ⟨fun hp => ?_, fun h hp => ?_⟩, fun s hs => ?_⟩
  · rcases hi with hi | ⟨data, hl, rfl⟩ | ⟨hlim, rfl⟩ | rfl
    · obtain ⟨⟨hd, cmd⟩, hrec⟩ := Option.isSome_iff_exists.1 hi
      exact takes_settle (exec_fetched hrec s) hr (Part.arrival_discarded hp hd cmd)
    · exact takes_settle (i := .recordArrives data) rfl hr ((if_pos hl).trans (Part.arrival_discarded hp _ _))
    · exact fetchFault_takes (busError := false) hr ha (fun _ => hlim) hp
    · exact fetchFault_takes (busError := true) hr ha (fun e => by cases e) hp
  · rcases hi with ⟨data, hl, rfl⟩ | ⟨hlim, rfl⟩ | rfl
    · exact takes_settle (i := .listArrives data) rfl hr (Part.listArrives_discarded hp ha hl)
    · exact listFault_takes (busError := false) hr ha (fun _ => hlim) hp
    · exact listFault_takes (busError := true) hr ha (fun e => by cases e) hp
  · have ht := fetchFault_takes hr ha hd hp
    cases busError <;> exact ht
  · have ht := listFault_takes hr ha hd hp
    cases busError <;> exact ht
  · exact lateAnswer_takes hs

end Sys2Proof.Machine
end

section
/-!
The notice ring's bounds (R160, R161): a notice handed over is the one change that adds to the pending list or the lost count, and
it stops at their limits.
-/

namespace Sys2Proof.Machine

namespace Part

variable {L R : Prop} {W : Fin 4 → Prop} {p p' : Part}

theorem Issued.noticesBounded (h : Issued p p') (hb : p.noticesBounded) : p'.noticesBounded :=
  ⟨(congrArg (fun r : NoticeRing => r.pending.length) h.ring).trans_le hb.1, h.lost.trans hb.2⟩

theorem noticesBounded_joinWriteList (hb : p.noticesBounded) (i : Item) : (p.joinWriteList i).noticesBounded :=
  (issued_issueNext (p.modPosting fun u => { u with writeList := u.writeList ++ [i] })).noticesBounded hb

theorem noticesBounded_handCompletion (hb : p.noticesBounded) (n : Fin 4) (c : Completion) :
    (p.handCompletion n c).noticesBounded := by
  unfold handCompletion
  split
  · exact noticesBounded_joinWriteList (p := p.returnCredit n) hb _
  · exact hb

/-- R161: the pending list takes a notice below its limit alone, and the lost count rises below its own alone. -/
theorem noticesBounded_handNotice (hb : p.noticesBounded) (n : Notice) : (p.handNotice n).noticesBounded := by
  obtain ⟨hpending, hlost⟩ := hb
  unfold handNotice
  split
  · exact ⟨hpending, hlost⟩
  split
  · exact noticesBounded_joinWriteList ⟨hpending, hlost⟩ _
  split
  · rename_i hroom
    refine ⟨?_, hlost⟩
    rw [modRing, modPosting_posting, List.length_append]
    exact hroom
  · refine ⟨hpending, ?_⟩
    rw [modRing, modPosting_posting]
    dsimp only
    split
    · assumption
    · exact hlost

theorem noticesBounded_resolve (hb : p.noticesBounded) (o : StepOutcome) (s : Step) : (p.resolve o s).noticesBounded := by
  unfold resolve
  split
  · exact hb
  split
  · exact hb
  dsimp only
  split
  · exact noticesBounded_handCompletion (p := p.setEntry _ none) hb _ _
  · exact hb

theorem Move.noticesBounded (m : Move W p p') (hb : p.noticesBounded) : p'.noticesBounded := by
  cases m with
  | completion n c _ => exact noticesBounded_handCompletion hb n c
  | notice n => exact noticesBounded_handNotice hb n
  | resolve o s => exact noticesBounded_resolve hb o s
  | channel | guarded | expired | domain | timeline | counted => exact hb

theorem Change.noticesBounded (m : Change L R p p') (hb : p.noticesBounded) : p'.noticesBounded := by
  cases m with
  | move m => exact m.noticesBounded hb
  | plain _ _ _ _ _ pending lost => exact ⟨pending.trans hb.1, lost hb.2⟩
  | pair | members | place => exact hb

theorem Changes.noticesBounded (m : Changes L R p p') (hb : p.noticesBounded) : p'.noticesBounded :=
  m.keep (fun _ _ m => m.noticesBounded) hb

end Part

/-- Settles O59: every change keeps the bounds, and a hard reset empties the pending list and the lost count. -/
theorem noticesStayBounded : Obligations.NoticesStayBounded := by
  intro s s' hb h
  rcases step_part h with e | e | e | e | ⟨i, p, hp, e⟩ <;> rw [e]
  · exact (Part.changes_backupPeriod (L := True) (R := True) s.part).noticesBounded hb
  · exact ⟨Nat.zero_le _, Nat.zero_le _⟩
  · exact hb
  · exact hb
  · exact Part.Changes.noticesBounded ((effect_changes hp).trans (Part.changes_settle p)) hb

end Sys2Proof.Machine
end

section
/-!
The commands handed to their owning blocks meet no posting fault, where the windows allow the completion (R139, section 8.7).
-/

namespace Sys2Proof.Machine

namespace Part

variable {W : Fin 4 → Prop} {p p' : Part} {q : Fin 8}

/-- A command is completed for its queue after changes that leave the Command Unit alone. -/
theorem Calm.completes (hc : Calm W p') (hk : p'.command = p.command) (hW : W (p.queue q).cq) (hd : Header) (st : Status)
    (aux : Nat) : Calm W (p'.complete q hd st aux) :=
  hc.complete (queue_of_command hk q ▸ hW) hd st aux

theorem Calm.completesWith (hc : Calm W p') (hk : p'.command = p.command) (hW : W (p.queue q).cq) (hd : Header)
    (aux v : Nat) : Calm W (p'.completeWith q hd aux v) :=
  hc.completeWith (queue_of_command hk q ▸ hW) hd aux v

section

variable (hc : Calm W p) (hW : W (p.queue q).cq) (hd : Header)
include hc hW

theorem Calm.cancelChannel (channel : BitVec 8) : Calm W (p.cancelChannel q hd channel) := by
  rw [cancelChannel_eq]
  split
  · exact hc.complete hW hd _ _
  · split
    · exact hc.complete hW hd _ _
    · exact calm_dropOn_completeWith hc hW _ _ hd _

theorem Calm.configureChannel (b : ChannelBody) : Calm W (p.configureChannel q hd b) := by
  unfold Part.configureChannel
  dsimp only
  split
  · exact hc.complete hW hd _ _
  · refine Calm.completesWith ?_ ((moves_requestIdle (W := fun _ => True) ..).command.trans ?_) hW hd _ _
    · exact Calm.moves (moves_requestIdle ..) (hc.congr rfl rfl rfl rfl)
    · rfl

theorem Calm.configurePair (b : PairBody) : Calm W (p.configurePair q hd b) := by
  unfold Part.configurePair
  dsimp only
  split
  · exact hc.complete hW hd _ _
  · refine Calm.completesWith (p' := p.modPair _ _) ?_ rfl hW hd _ _
    exact hc.congr rfl rfl rfl rfl

theorem Calm.queryChannel (channel : BitVec 8) : Calm W (p.queryChannel q hd channel) := by
  unfold Part.queryChannel
  dsimp only
  split
  · exact hc.complete hW hd _ _
  · split
    · exact hc.complete hW hd _ _
    · refine Calm.completesWith (p' := { p with freeIndex := p.freeIndex + 1 }) ?_ rfl hW hd _ _
      exact hc.congr rfl rfl rfl rfl

theorem Calm.configureDomain (b : DomainBody) : Calm W (p.configureDomain q hd b) := by
  rw [configureDomain_eq]
  exact hc.answered hW hd _ ((hc.modDomain _ _).completes rfl hW hd _ _)

theorem Calm.loadSafeSequence (b : SequenceBody) : Calm W (p.loadSafeSequence q hd b) := by
  unfold Part.loadSafeSequence
  split
  · exact hc.complete hW hd _ _
  · exact (hc.modDomain _ _).completes rfl hW hd _ _

theorem Calm.armDomain (domain : BitVec 8) : Calm W (p.armDomain q hd domain) := by
  rw [armDomain_eq]
  exact hc.answered hW hd _ ((hc.modDomain _ _).completes rfl hW hd _ _)

theorem Calm.tripDomain (domain : BitVec 8) : Calm W (p.tripDomain q hd domain) := by
  rw [tripDomain_eq]
  exact hc.answered hW hd _ (hc.offer_completeWith hW _ _ hd _ _)

theorem Calm.releaseDomain (domain : BitVec 8) : Calm W (p.releaseDomain q hd domain) := by
  rw [releaseDomain_eq]
  exact hc.answered hW hd _ (hc.moves (moves_release hW hd _))

theorem Calm.queryDomain (domain : BitVec 8) : Calm W (p.queryDomain q hd domain) := by
  rw [queryDomain_eq]
  exact hc.answered hW hd _ (hc.completeWith hW hd _ _)

theorem Calm.configureFaultInput (b : InputBody) : Calm W (p.configureFaultInput q hd b) := by
  rw [configureFaultInput_eq]
  exact hc.answered hW hd _ ((hc.modInput _ _).completes rfl hW hd _ _)

theorem Calm.clearFaultLatch (input : BitVec 8) : Calm W (p.clearFaultLatch q hd input) := by
  rw [clearFaultLatch_eq]
  exact hc.answered hW hd _ ((hc.modInput _ _).completes rfl hW hd _ _)

theorem Calm.configureSupervisor (b : SupervisorBody) : Calm W (p.configureSupervisor q hd b) := by
  rw [configureSupervisor_eq]
  exact hc.answered hW hd _ ((hc.modClock _).completes rfl hW hd _ _)

theorem Calm.restorePrimaryClock : Calm W (p.restorePrimaryClock q hd) := by
  rw [restorePrimaryClock_eq]
  exact hc.answered hW hd _ ((hc.restoredSource.modClock _).completes p.restoredSource_command hW hd _ _)

theorem Calm.disarmDomain (domain : BitVec 8) : Calm W (p.disarmDomain q hd domain) := by
  unfold Part.disarmDomain
  dsimp only
  split
  · exact hc.complete hW hd _ _
  · split
    · exact hc.complete hW hd _ _
    · exact (hc.modDomain _ _).completes rfl hW hd _ _
    all_goals exact hc.complete hW hd _ _

/-- No owning block meets a posting fault (section 8.7). -/
theorem Calm.owner (cmd : Command) : Calm W (p.owner q hd cmd) := by
  unfold Part.owner
  split
  · exact hc.scheduleInline hW hd _
  · exact hc.scheduleInline hW hd _
  · exact hc.scheduleList hW hd _
  · exact calm_dropOn_completeWith hc hW _ _ hd _
  · exact hc.cancelChannel hW hd _
  · exact hc.configureChannel hW hd _
  · exact hc.configurePair hW hd _
  · exact hc.queryChannel hW hd _
  · exact hc.configureDomain hW hd _
  · exact hc.loadSafeSequence hW hd _
  · exact hc.armDomain hW hd _
  · exact hc.disarmDomain hW hd _
  · exact hc.tripDomain hW hd _
  · exact hc.releaseDomain hW hd _
  · exact hc.queryDomain hW hd _
  · exact hc.configureFaultInput hW hd _
  · exact hc.clearFaultLatch hW hd _
  · exact hc.configureSupervisor hW hd _
  · exact hc.restorePrimaryClock hW hd
  · exact hc.complete hW hd _ _
  · exact hc.complete hW hd _ _

theorem Calm.process (cmd : Command) : Calm W (p.process q hd cmd) := by
  unfold Part.process
  split
  · exact hc.complete hW hd _ _
  · exact hc.owner hW hd cmd

end

/-! ### The queues -/

/-- Calm does not depend on the counts and the head of a completion queue. -/
theorem Calm.modCq (hc : Calm W p) (n : Fin 4) {f : CompletionContext → CompletionContext}
    (hf : ∀ x, (f x).base = x.base ∧ (f x).tail = x.tail) : Calm W (p.modCq n f) := by
  have htail (m : Fin 4) : (p.modCq n f).tailWritable m = p.tailWritable m := by
    unfold tailWritable
    rw [cq_modCq]
    split
    · rename_i hm
      rw [(hf _).1, (hf _).2, hm]
      rfl
    · rfl
  exact ⟨hc.fault, hc.entries, hc.next.imp_right (Or.imp_right fun ⟨hlist, htails, hring⟩ =>
    ⟨hlist, fun m hm => (htail m).trans (htails m hm), hring⟩)⟩

theorem Calm.returnCredit (hc : Calm W p) (n : Fin 4) : Calm W (p.returnCredit n) := hc.modCq n fun _ => ⟨rfl, rfl⟩

theorem Calm.queueError (hc : Calm W p) (q : Fin 8) (reason : QueueErrorReason) (index : Nat) (parked : Bool) :
    Calm W (p.queueError q reason index parked) := by
  unfold Part.queueError
  refine Calm.notify ?_ _
  exact hc.congr rfl rfl rfl rfl

theorem Calm.freePath (hc : Calm W p) : Calm W p.freePath := ⟨hc.fault, hc.entries, hc.next⟩

theorem Calm.fetchFault (hc : Calm W p) (q : Fin 8) (f : AccessFault) : Calm W (p.fetchFault q f) :=
  (hc.returnCredit _).queueError q _ _ _

theorem Calm.commandReadFault (hc : Calm W p) (hW : Owing W p) (f : AccessFault) : Calm W (p.commandReadFault f) := by
  cases hp : p.command.path with
  | free =>
    rw [Part.commandReadFault, hp]
    exact hc
  | fetch q discarded =>
    rw [commandReadFault_fetch hp]
    split
    · exact hc.freePath.returnCredit _
    · exact hc.freePath.fetchFault q f
  | list q h discarded =>
    rw [commandReadFault_list hp]
    split
    · exact hc.freePath
    · exact hc.freePath.complete (q := q) (hW q (.inr (by rw [hp]; rfl))) h _ _

theorem Calm.completeParked (hc : Calm W p) (hW : W (p.queue q).cq) : Calm W (p.completeParked q) := by
  unfold Part.completeParked
  split
  · exact hc
  · unfold completeHeld
    refine Calm.complete ?_ ?_ _ _ _
    · exact hc.congr rfl rfl rfl rfl
    · rw [queue_modQueue, if_pos rfl]
      exact hW

theorem Calm.discardFetch (hc : Calm W p) (q : Fin 8) : Calm W (p.discardFetch q) := by
  rw [discardFetch_eq]
  exact hc.congr rfl rfl rfl rfl

theorem Calm.rejectNotify (hc : Calm W p) : Calm W p.rejectNotify := ⟨hc.fault, hc.entries, hc.next⟩

/-- R129: the queue that a NOTIFY write reaches is not DISABLED, so its completions may be written. -/
theorem Owing.reached (hW : Owing W p) {target : BitVec 4} (h : p.notifyReaches target = some q) : W (p.queue q).cq := by
  obtain ⟨⟨-, -, hd⟩, hq⟩ := Option.ite_none_right_eq_some.1 ((notifyReaches_eq p target).symm.trans h)
  cases hq
  exact hW _ (.inl hd)

theorem Calm.postTail (hc : Calm W p) (hW : Owing W p) (target : BitVec 4) (index : BitVec 16) :
    Calm W (p.postTail target index) := by
  cases hq : p.notifyReaches target with
  | none =>
    rw [postTail_unreached hq]
    exact hc.rejectNotify
  | some q =>
    rw [postTail_reached hq]
    split
    · exact hc.rejectNotify
    split
    · exact hc.congr rfl rfl rfl rfl
    · exact ((hc.completeParked (hW.reached hq)).discardFetch q).queueError q _ _ _

theorem Calm.resetQueue (hc : Calm W p) (hW : Owing W p) (target : BitVec 4) : Calm W (p.resetQueue target) := by
  cases hq : p.notifyReaches target with
  | none =>
    rw [resetQueue_unreached hq]
    exact hc.rejectNotify
  | some q =>
    rw [resetQueue_reached hq]
    exact ((hc.completeParked (hW.reached hq)).discardFetch q).congr rfl rfl rfl rfl

/-! ### CONSUME -/

theorem joinWriteList_enabled (p : Part) (i : Item) :
    (p.joinWriteList i).posting.ring.enabled = p.posting.ring.enabled :=
  (congrArg NoticeRing.enabled (issued_issueNext (p.modPosting fun u => { u with writeList := u.writeList ++ [i] })).ring :)

/-- R163: the pending notices of an enabled ring that is written meet no posting fault. -/
theorem Calm.movePending (fuel : Nat) (hc : Calm W p) (hp : p.isPosting = true) (he : p.posting.ring.enabled = true) :
    Calm W (movePending fuel p) := by
  induction fuel generalizing p with
  | zero => exact hc
  | succ fuel ih =>
    unfold Part.movePending
    split
    · exact hc
    rename_i n rest _
    split
    · have hm : Calm W (p.modRing fun r => { r with pending := rest }) := hc.modRing _ ⟨rfl, rfl, rfl⟩
      exact ih (hm.joinNotice hp n he) ((isPosting_of_engine (joinWriteList_engine ..)).trans hp)
        ((joinWriteList_enabled ..).trans he)
    · exact hc

theorem isPosting_of_consumeAccepted (h : p.consumeAccepted = true) : p.isPosting = true := by
  rcases consumeAccepted_iff.1 h with h | h | h <;> rw [isPosting, h]

theorem Calm.consumeCq (hc : Calm W p) (n : Fin 4) (index : Nat) : Calm W (p.consumeCq n index) := by
  unfold Part.consumeCq
  dsimp only
  split
  · exact hc.modCq n fun _ => ⟨rfl, rfl⟩
  · exact hc.rejectNotify

theorem Calm.consumeRing (hc : Calm W p) (hp : p.isPosting = true) (index : Nat) : Calm W (p.consumeRing index) := by
  unfold Part.consumeRing
  dsimp only
  split
  · rename_i h
    simp only [Bool.and_eq_true] at h
    have hm : Calm W (p.modRing fun r => { r with head := index }) := hc.modRing _ ⟨rfl, rfl, rfl⟩
    exact hm.movePending _ hp h.1.1
  · exact hc.rejectNotify

theorem Calm.consume (hc : Calm W p) (target : BitVec 4) (index : BitVec 16) : Calm W (p.consume target index) := by
  rw [consume_eq]
  split
  · exact hc.rejectNotify
  rename_i ha
  split
  · exact hc.consumeCq _ _
  split
  · exact hc.consumeRing (isPosting_of_consumeAccepted (not_not.1 ha)) _
  · exact hc.rejectNotify

theorem Calm.notifyWrite (hc : Calm W p) (hW : Owing W p) (operation target : BitVec 4) (index : BitVec 16) :
    Calm W (p.notifyWrite operation target index) := by
  unfold Part.notifyWrite
  split
  · exact hc.postTail hW target index
  · exact hc.consume target index
  · exact hc.resetQueue hW target
  · exact hc.rejectNotify

/-! ### The fetch arbiter -/

theorem Calm.issueFetch (hc : Calm W p) (q : Fin 8) : Calm W (p.issueFetch q) := by
  have hreserved : Calm W (p.modCq (p.queue q).cq fun n => { n with reserved := n.reserved + 1 }) :=
    hc.modCq _ fun _ => ⟨rfl, rfl⟩
  unfold Part.issueFetch
  dsimp only
  split
  · exact ⟨hreserved.fault, hreserved.entries, hreserved.next⟩
  · exact hreserved.fetchFault q _

theorem Calm.grantTo (hc : Calm W p) (hW : Owing W p) (q : Fin 8) : Calm W (p.grantTo q) := by
  have hm : Calm W (p.movePointer q) := hc.congr rfl rfl rfl rfl
  unfold Part.grantTo
  dsimp only
  split
  · rename_i hs _
    rw [queue_movePointer] at hs
    refine hm.retry ?_ _
    rw [queue_movePointer]
    exact hW q (.inl (by rw [hs]; decide))
  · exact hm.issueFetch q

end Part
end Sys2Proof.Machine
end

section
/-!
The commands under which no posting fault is met and the engine does not become FATAL: all but the answers and the faults of
posting writes (R168, R192).
-/

namespace Sys2Proof.Machine

namespace Part

variable {W : Fin 4 → Prop} {p p' : Part}

/-- No posting fault has been met, and the engine is not FATAL. -/
structure Unfaulted (p : Part) : Prop where
  fault : p.posting.fault = none
  state : p.engine.state ≠ .fatal

/-- What Engine Control does at the end of an event takes an engine with no posting fault to HALTED at most. -/
theorem Unfaulted.settle (h : Unfaulted p) : Unfaulted p.settle := by
  have hf : p.checkFault = p := by rw [checkFault, h.fault]
  rw [Part.settle, hf, checkHalted]
  split
  · exact ⟨h.fault, nofun⟩
  · exact h

/-- A calm effect that keeps the engine's state. -/
theorem Calm.unfaulted (hc : Calm W p') (hk : Kept p p') (hs : p.engine.state ≠ .fatal) : Unfaulted p' :=
  ⟨hc.fault, hk.state ▸ hs⟩

section

variable (hc : Calm W p) (hs : p.engine.state ≠ .fatal)
include hc hs

theorem Moves.unfaulted (h : ∀ W, Moves W p p') : Unfaulted p' :=
  (hc.moves (h W)).unfaulted (h fun _ => True).kept hs

/-! ### The CONTROL operations -/

theorem unfaulted_refuseControl (o : LastRefused) : Unfaulted (p.refuseControl o) := ⟨hc.fault, hs⟩

theorem unfaulted_controlStart : Unfaulted p.controlStart := by
  unfold controlStart
  split
  · dsimp only
    refine ⟨?_, nofun⟩
    split <;> exact hc.fault
  · exact unfaulted_refuseControl hc hs _

theorem unfaulted_controlHalt (hW : Owing W p) : Unfaulted p.controlHalt := by
  unfold controlHalt
  split
  · rename_i hr
    refine ⟨((hc.halting hW hr).moves (moves_halt p)).fault, ?_⟩
    rw [engine_halt]
    nofun
  · exact unfaulted_refuseControl hc hs _

omit hc hs in
/-- R194: a soft reset clears the Posting Unit and leaves the engine OFF, which writes nothing. -/
theorem unfaulted_softReset (p : Part) : Unfaulted p.softReset := by
  have hreset : Calm (fun _ => True) p.softResetBlocks := ⟨rfl, fun _ _ _ => trivial, .inl rfl⟩
  exact Moves.unfaulted hreset nofun fun _ => moves_requestSafe ..

theorem unfaulted_controlWrite (hW : Owing W p) (operation : BitVec 4) : Unfaulted (p.controlWrite operation) := by
  unfold controlWrite
  split
  · exact unfaulted_controlStart hc hs
  · exact unfaulted_controlHalt hc hs hW
  · exact unfaulted_softReset p
  · exact unfaulted_refuseControl hc hs _

/-! ### The register window -/

theorem unfaulted_notifyWrite (hW : Owing W p) (operation target : BitVec 4) (index : BitVec 16) :
    Unfaulted (p.notifyWrite operation target index) :=
  (hc.notifyWrite hW operation target index).unfaulted (steady_notifyWrite ..).toKept hs

theorem unfaulted_registerWrite (hW : Owing W p) (offset : BitVec 8) (value : BitVec 32) :
    Unfaulted (p.registerWrite offset value) := by
  unfold registerWrite
  split
  · exact unfaulted_controlWrite hc hs hW _
  · exact ⟨hc.fault, hs⟩
  · exact ⟨hc.fault, hs⟩
  · exact unfaulted_notifyWrite hc hs hW _ _ _
  · exact ⟨hc.fault, hs⟩
  · exact ⟨hc.fault, hs⟩
  · exact ⟨hc.fault, hs⟩

/-! ### The moments -/

theorem unfaulted_sampleEvent {n : Fin 16} {pinHigh : Bool} (h : p.sampleEvent n pinHigh = some p') : Unfaulted p' := by
  refine Calm.unfaulted (W := W) ?_ (steady_sampleEvent n pinHigh h).toKept hs
  unfold sampleEvent at h
  dsimp only at h
  split at h
  · cases h
    split
    · exact (hc.modInput n _).moves (moves_activate ..)
    · exact hc.modInput n _
  · cases h

theorem unfaulted_primaryStop (h : p.primaryStop = some p') : Unfaulted p' := by
  refine Calm.unfaulted (W := W) ?_ (steady_primaryStop h).toKept hs
  unfold primaryStop at h
  dsimp only at h
  split at h
  · cases h
    exact ((hc.modClock _).switchSource _ _ _).supervisorStopped
  · cases h

theorem unfaulted_refEdge (h : p.refEdge = some p') : Unfaulted p' := by
  refine Calm.unfaulted (W := W) ?_ (steady_refEdge h).toKept hs
  unfold refEdge at h
  dsimp only at h
  split at h
  · cases h
  split at h
  · cases h
  split at h
  · cases h; exact hc.modClock _
  split at h
  · cases h; exact hc.takeVerdict _ _ _
  · cases h; exact hc.modClock _

theorem unfaulted_windowEnd (h : p.windowEnd = some p') : Unfaulted p' := by
  refine Calm.unfaulted (W := W) ?_ (steady_windowEnd h).toKept hs
  unfold windowEnd at h
  dsimp only at h
  split at h
  · cases h
  split at h
  · cases h; exact hc.takeVerdict _ _ _
  · cases h

theorem unfaulted_referenceTimeout (h : p.referenceTimeout = some p') : Unfaulted p' := by
  refine Calm.unfaulted (W := W) ?_ (steady_referenceTimeout h).toKept hs
  unfold referenceTimeout at h
  dsimp only at h
  split at h
  · cases h
  split at h
  · cases h; exact hc.takeVerdict _ _ _
  · cases h

theorem unfaulted_primaryIndicationAbsent (h : p.primaryIndicationAbsent = some p') : Unfaulted p' := by
  refine Calm.unfaulted (W := W) ?_ (steady_primaryIndicationAbsent h).toKept hs
  unfold primaryIndicationAbsent at h
  split at h
  · cases h; exact hc.modClock _
  · cases h

theorem unfaulted_holdoffExpiry {n : Fin 4} (h : p.holdoffExpiry n = some p') : Unfaulted p' := by
  refine ⟨?_, (steady_holdoffExpiry n h).state ▸ hs⟩
  unfold holdoffExpiry at h
  dsimp only at h
  split at h
  · cases h
    split <;> exact hc.fault
  · cases h

theorem unfaulted_fetchGrant (hW : Owing W p) (h : p.fetchGrant = some p') : Unfaulted p' := by
  unfold fetchGrant at h
  split at h
  · obtain ⟨q, -, rfl⟩ := Option.map_eq_some_iff.1 h
    exact (hc.grantTo hW q).unfaulted (kept_grantTo p q) hs
  · cases h

/-- The pulses that waited are taken before the time value ends, and Engine Control is done with them before the tick. -/
theorem unfaulted_timebaseTick : Unfaulted p.timebaseTick := by
  obtain ⟨hfault, hstate⟩ := (Moves.unfaulted hc hs fun W => moves_endWaits (W := W) p).settle
  exact ⟨hfault, hstate⟩

/-! ### The answers of the other owners' accesses -/

theorem unfaulted_arrival (hW : Owing W p) {hd : Header} {cmd : Command} (h : p.arrival hd cmd = some p') :
    Unfaulted p' := by
  unfold arrival at h
  split at h
  · rename_i q discarded hpath
    split at h
    · cases h
      exact ⟨hc.fault, hs⟩
    · cases h
      have htaken : W ((p.taken q).queue q).cq := by
        rw [taken_cq]
        exact hW q (.inr (by rw [hpath]; rfl))
      exact ((hc.taken q).process htaken hd cmd).unfaulted (kept_process (p.taken q) q hd cmd) hs
  · cases h

theorem unfaulted_recordArrives (hW : Owing W p) {data : List Byte} (h : p.recordArrives data = some p') :
    Unfaulted p' := by
  unfold recordArrives at h
  split at h
  · exact unfaulted_arrival hc hs hW h
  · cases h

theorem unfaulted_listArrives (hW : Owing W p) {data : List Byte} (h : p.listArrives data = some p') :
    Unfaulted p' := by
  unfold listArrives at h
  split at h
  · rename_i q hd discarded a hpath _
    split at h
    · split at h
      · cases h
        exact ⟨hc.fault, hs⟩
      · cases h
        have hq : W (p.freePath.queue q).cq := hW q (.inr (by rw [hpath]; rfl))
        exact (hc.freePath.admitList hq hd _).unfaulted (kept_admitList p.freePath q hd _) hs
    · cases h
  · cases h

omit hs in
theorem unfaulted_loadFailed (f : LoadFault) : Unfaulted (p.loadFailed f) := ⟨hc.fault, nofun⟩

omit hs in
theorem unfaulted_configurationBlockArrives {data : List Byte} (h : p.configurationBlockArrives data = some p') :
    Unfaulted p' := by
  unfold configurationBlockArrives at h
  dsimp only at h
  split at h
  · split at h
    · cases h
      rw [loadBlock_rest]
      exact ⟨hc.fault, nofun⟩
    · cases h
      exact unfaulted_loadFailed hc _
  · cases h

theorem unfaulted_accessFault (hW : Owing W p) {owner : AccessOwner} (ho : owner ≠ .postingUnit) (a : Access)
    (f : AccessFault) : Unfaulted (p.accessFault owner a f) := by
  have hread : Unfaulted (p.commandReadFault f) :=
    (hc.commandReadFault hW f).unfaulted (steady_commandReadFault p f).toKept hs
  cases owner with
  | commandUnit | stepScheduler => exact hread
  | postingUnit => exact absurd rfl ho
  | engineControl => exact unfaulted_loadFailed hc _

theorem unfaulted_accessTimeout (hW : Owing W p) {owner : AccessOwner} (ho : owner ≠ .postingUnit)
    (h : p.accessTimeout owner = some p') : Unfaulted p' := by
  unfold accessTimeout at h
  split at h
  · cases h
  · split at h
    · cases h
      exact unfaulted_accessFault hc hs hW ho _ _
    · cases h

theorem unfaulted_busErrorResponse (hW : Owing W p) {owner : AccessOwner} (ho : owner ≠ .postingUnit)
    (h : p.busErrorResponse owner = some p') : Unfaulted p' := by
  unfold busErrorResponse at h
  split at h
  · cases h
  · cases h
    exact unfaulted_accessFault hc hs hW ho _ _

end

end Part

/-- The commands that end a posting write. -/
def endsPostingWrite (i : Instr) : Prop :=
  i = .completionWriteAnswered ∨ i = .noticeWriteAnswered ∨ i = .accessTimeout .postingUnit ∨
    i = .busErrorResponse .postingUnit

/-- No command but one that ends a posting write meets a posting fault or makes the engine FATAL, where the windows allow the
next posting write. -/
theorem effect_unfaulted {W : Fin 4 → Prop} {i : Instr} {p p' : Part} (hc : Part.Calm W p) (hW : Part.Owing W p)
    (hs : p.engine.state ≠ .fatal) (hi : ¬endsPostingWrite i) (h : effect i p = some p') : Part.Unfaulted p' := by
  cases i
  case hardReset | resetnNegated | intCauseWrite | intEnableWrite | lateAnswer | tclkEdge =>
    cases h
    exact ⟨hc.fault, hs⟩
  case start | halt | softReset | unknownControlOperation =>
    exact Option.some.inj h ▸ Part.unfaulted_controlWrite hc hs hW _
  case postTail | resetQueue | consume | unrecognisedNotifyOperation =>
    exact Option.some.inj h ▸ Part.unfaulted_notifyWrite hc hs hW _ _ _
  case registerWrite => exact Option.some.inj h ▸ Part.unfaulted_registerWrite hc hs hW _ _
  case dueTimeEvent => exact Part.Moves.unfaulted hc hs fun _ => Part.moves_dueTimeEvent _ _ h
  case deadTimeExpiry => exact Part.Moves.unfaulted hc hs fun _ => Part.moves_deadTimeExpiry _ h
  case safeSequenceEntryDue => exact Part.Moves.unfaulted hc hs fun _ => Part.moves_safeSequenceEntryDue _ _ h
  case sampleEvent => exact Part.unfaulted_sampleEvent hc hs h
  case primaryStop => exact Part.unfaulted_primaryStop hc hs h
  case windowEnd => exact Part.unfaulted_windowEnd hc hs h
  case referenceTimeout => exact Part.unfaulted_referenceTimeout hc hs h
  case holdoffExpiry => exact Part.unfaulted_holdoffExpiry hc hs h
  case fetchGrant => exact Part.unfaulted_fetchGrant hc hs hW h
  case recordArrives => exact Part.unfaulted_recordArrives hc hs hW h
  case listArrives => exact Part.unfaulted_listArrives hc hs hW h
  case completionWriteAnswered => exact absurd (.inl rfl) hi
  case noticeWriteAnswered => exact absurd (.inr (.inl rfl)) hi
  case configurationBlockArrives => exact Part.unfaulted_configurationBlockArrives hc h
  case accessTimeout owner =>
    refine Part.unfaulted_accessTimeout hc hs hW (owner := owner) (fun ho => hi ?_) h
    exact .inr (.inr (.inl (congrArg Instr.accessTimeout ho)))
  case busErrorResponse owner =>
    refine Part.unfaulted_busErrorResponse hc hs hW (owner := owner) (fun ho => hi ?_) h
    exact .inr (.inr (.inr (congrArg Instr.busErrorResponse ho)))
  case timebaseTick => exact Option.some.inj h ▸ Part.unfaulted_timebaseTick hc hs
  case refEdge => exact Part.unfaulted_refEdge hc hs h
  case primaryIndicationAbsent => exact Part.unfaulted_primaryIndicationAbsent hc hs h
  all_goals exact Part.unfaulted_arrival hc hs hW h

/-- Settles O14: an effect that meets no posting fault leaves the engine as HALTED at most, and a hard reset leaves it OFF. -/
theorem fatalOnlyByAPostingWrite : Obligations.FatalOnlyByAPostingWrite := by
  intro i s s' hw hs h1 h2 h3 h4 h
  by_cases hr : i = .hardReset
  · subst hr
    cases h
    nofun
  by_cases hn : i = .resetnNegated
  · subst hn
    cases h
    exact hs
  have hi : ¬endsPostingWrite i := by
    rintro (e | e | e | e)
    exacts [h1 e, h2 e, h3 e, h4 e]
  rcases exec_part hr hn h with e | ⟨p, hp, e⟩ <;> rw [e]
  · exact hs
  · exact (effect_unfaulted (Part.calm_of_writesAllowed hw) s.part.owes_queue hs hi hp).settle.state

end Sys2Proof.Machine
end

section
/-!
START and the loads that fail (R169, R174, R183, R185, R188).
-/

namespace Sys2Proof.Machine

namespace Part

variable {p : Part}

/-- The part that enters LOADING and requests the block (R174, R185). -/
def loading (p : Part) : Part :=
  (p.modEngine fun e => { e with state := .loading, loadFault := .none, lastRefused := .none }).requestBlock

/-- An accepted START: in HALTED the Posting Unit lets go of its items first (R169, R185). -/
theorem controlStart_accepted (h : p.engine.state = .off ∨ p.engine.state = .halted) :
    p.controlStart = (if p.engine.state = .halted then p.abandonPosting else p).loading :=
  if_pos (startAccepted_iff.2 h)

theorem settle_loading (h : p.posting.fault = none) : p.loading.settle = p.loading := settle_calm h nofun

/-- R169: a write in flight is abandoned, by this START or by an earlier one. -/
theorem abandoned_abandonPosting (h : p.monitor.posting.isSome = true) : p.abandonPosting.posting.abandoned = true := by
  rw [abandonPosting, modPosting_posting, h]
  cases p.posting.abandoned <;> rfl

end Part

theorem exec_start (s : State) : exec .start s = event (fun p => some (p.controlWrite 1)) s := rfl

/-- Settles O5, by the engine state in which START is accepted. -/
theorem startRequestsTheBlock : Obligations.StartRequestsTheBlock := by
  intro s hr hf ha
  have ht := takes_settle (exec_start s) hr rfl
  rw [show s.part.controlWrite 1 = s.part.controlStart from rfl, Part.controlStart_accepted ha] at ht
  rcases ha with ho | hh
  · rw [if_neg (by rw [ho]; decide), Part.settle_loading hf] at ht
    exact ⟨_, ht, rfl, rfl, rfl, fun _ => rfl, fun h => by rw [ho] at h; cases h⟩
  · rw [if_pos hh, Part.settle_loading (p := s.part.abandonPosting) hf] at ht
    exact ⟨_, ht, rfl, rfl, rfl, fun h => (by rw [hh] at h; cases h),
      fun _ => ⟨rfl, rfl, rfl, rfl, rfl, Part.abandoned_abandonPosting⟩⟩

namespace Part

variable {p : Part}

/-- What a failed load leaves (R169, R188). -/
def failedLoad (p : Part) (fault : LoadFault) : Part :=
  { p with
    engine := { p.engine with state := .halted, loadFault := fault }
    monitor := { p.monitor with block := none }
    posting := { p.posting with
      restore := none, causes := p.posting.causes ||| engineCause, ring := giveBack p.posting.ring p.posting.restore } }

/-- R169: what a failed load gives back, as the statements write it. -/
theorem giveBack_eq (r : NoticeRing) (restore : Option (Nat × Nat)) : giveBack r restore = (match restore with
    | none => r
    | some (sequence, lost) => { r with sequence := sequence, lost := min 65535 (r.lost + lost) }) := by
  cases restore <;> rfl

theorem settle_failedLoad (h : p.posting.fault = none) (fault : LoadFault) :
    (p.failedLoad fault).settle = p.failedLoad fault := settle_calm h nofun

theorem configurationBlockArrives_invalid {data : List Byte} (hb : p.monitor.block.isSome = true)
    (hl : data.length = 384) (hv : (readBlock data).loadFault ≠ .none) :
    p.configurationBlockArrives data = some (p.failedLoad (readBlock data).loadFault) := by
  unfold configurationBlockArrives
  rw [if_pos (by simp [hb, hl])]
  dsimp only
  split
  · exact absurd ‹_› hv
  · rfl

end Part

/-- Settles O11: the block that fails a test, the timeout and the bus error response all end in the same failed load. -/
theorem loadFails : Obligations.LoadFails := by
  intro s hr hf failed
  have hfailed (fault : LoadFault) : s.part.failedLoad fault = failed fault := by
    rw [Part.failedLoad, Part.giveBack_eq]
    rfl
  have hsettle (fault : LoadFault) : (s.part.failedLoad fault).settle = failed fault :=
    (Part.settle_failedLoad hf fault).trans (hfailed fault)
  refine ⟨fun data hb hl hv => ?_, fun a ha hlimit => ?_, fun hb => ?_⟩
  · rw [← hsettle]
    exact takes_settle (exec_configurationBlockArrives data s) hr (Part.configurationBlockArrives_invalid hb hl hv)
  · have h := accessFault_takes (busError := false) (owner := .engineControl) hr (s := s) ha fun _ => hlimit
    rw [← hsettle]
    exact h
  · obtain ⟨a, ha⟩ := Option.isSome_iff_exists.1 hb
    have h := accessFault_takes (busError := true) (owner := .engineControl) hr (s := s) ha nofun
    rw [← hsettle]
    exact h

end Sys2Proof.Machine
end

section
/-!
Handing over to the Posting Unit and issuing the oldest item (R151, R153, R154, R161, R162).
-/

namespace Sys2Proof.Machine

namespace Part

variable {p : Part}

/-- A completion counts as a waiting one of its own queue (R149). -/
theorem waitingCompletions_of_writeList {p' : Part} {n : Fin 4} {c : Completion}
    (h : p'.posting.writeList = p.posting.writeList ++ [.completion n c]) :
    p'.waitingCompletions n = p.waitingCompletions n + 1 := by
  simp [waitingCompletions, h]

/-- A notice of the write list counts as a queued one (R160). -/
theorem queuedNotices_of_writeList {p' : Part} {n : Notice}
    (h : p'.posting.writeList = p.posting.writeList ++ [.notice n]) : p'.queuedNotices = p.queuedNotices + 1 := by
  simp [queuedNotices, h]

/-- An item that joins the write list, and the issue of the oldest one, change the Posting Unit and its write in flight alone;
the rings keep all but the sequence number and the lost count (R153). -/
structure Joined (p : Part) (i : Item) (p' : Part) : Prop where
  rest : p' = { p with posting := p'.posting, monitor := { p.monitor with posting := p'.monitor.posting } }
  writeList : p'.posting.writeList = p.posting.writeList ++ [i]
  cqs : p'.posting.cqs = p.posting.cqs
  causes : p'.posting.causes = p.posting.causes
  ring : { p'.posting.ring with sequence := p.posting.ring.sequence, lost := p.posting.ring.lost } = p.posting.ring

theorem joined_joinWriteList (p : Part) (i : Item) : Joined p i (p.joinWriteList i) := by
  have h := issued_issueNext (p.modPosting fun u => { u with writeList := u.writeList ++ [i] })
  exact ⟨h.rest, h.writeList, h.cqs, h.causes, h.ring⟩

theorem Joined.pending {p' : Part} {i : Item} (h : Joined p i p') :
    p'.posting.ring.pending = p.posting.ring.pending :=
  (congrArg NoticeRing.pending h.ring :)

theorem handCompletion_posting (hp : p.isPosting = true) (n : Fin 4) (c : Completion) :
    p.handCompletion n c = (p.returnCredit n).joinWriteList (.completion n c) := if_pos hp

/-- R151: the credit of a completion passes from the reserved ones. -/
theorem cq_handCompletion (hp : p.isPosting = true) (n m : Fin 4) (c : Completion) : (p.handCompletion n c).cq m =
    if m = n then { p.cq n with reserved := (p.cq n).reserved - 1 } else p.cq m := by
  have h := (joined_joinWriteList (p.returnCredit n) (.completion n c)).cqs
  rw [handCompletion_posting hp]
  exact (congrArg (fun v : Vector CompletionContext 4 => v[m]) h).trans (cq_modCq ..)

/-! ### The issue of the oldest item -/

/-- R154: the write of a completion at an entry that the windows allow. -/
theorem issueCompletion_allowed {n : Fin 4} (h : p.tailWritable n = true) (c : Completion) :
    p.issueCompletion n c = { p with monitor := { p.monitor with
      posting := some { purpose := .completionWrite n, address := (p.cq n).base + 16 * (p.cq n).tail, length := 16, timer := 0,
                        limit := p.monitor.timeout * 16, data := completionBytes c (p.cq n).phase } } } := by
  rw [issueCompletion, issueWrite, completionBytes_length, if_pos]
  · rfl
  · exact h

/-- R162: the write of a notice at an entry that the windows allow. -/
theorem issueNotice_allowed (h : p.noticeTailWritable = true) (n : Notice) :
    p.issueNotice n = { p with
      monitor := { p.monitor with
        posting := some { purpose := .noticeWrite, address := p.posting.ring.base + 32 * p.posting.ring.tail, length := 32,
                          timer := 0, limit := p.monitor.timeout * 16,
                          data := noticeBytes n p.posting.ring.sequence p.posting.ring.lost p.posting.ring.phase } }
      posting := { p.posting with
        taken := some (p.posting.ring.sequence, p.posting.ring.lost)
        ring := { p.posting.ring with sequence := (p.posting.ring.sequence + 1) % 2 ^ 32, lost := 0 } } } := by
  unfold issueNotice
  dsimp only
  rw [issueWrite, noticeBytes_length, if_pos]
  · rfl
  · exact h

end Part

/-- Settles O22, by the issue that follows a hand-over and by the two kinds of oldest item. -/
theorem completionsAreHandedOverAndIssued : Obligations.CompletionsAreHandedOverAndIssued := by
  refine ⟨fun p n c => ⟨fun hp => Part.handCompletion_stopped hp n c, fun hp => ?_⟩, fun p hp hf hm => ⟨?_, ?_⟩⟩
  · have hj := Part.joined_joinWriteList (p.returnCredit n) (.completion n c)
    have hcq := fun m => Part.cq_handCompletion hp n m c
    rw [← Part.handCompletion_posting hp] at hj
    refine ⟨hj.writeList, ?_, fun m hm => ?_, Part.waitingCompletions_of_writeList hj.writeList, hj.pending, hj.causes,
      hj.rest⟩
    · rw [hcq, if_pos rfl]
    · rw [hcq, if_neg hm]
  · intro n c rest hw ht
    rw [Part.issueNext_completion hp hf hm hw]
    exact Part.issueCompletion_allowed ht c
  · intro n rest hw ht
    rw [Part.issueNext_notice hp hf hm hw]
    exact Part.issueNotice_allowed ht n

namespace Part

variable {p : Part}

/-! ### The four ways of a notice (R161) -/

theorem handNotice_discarded (h : p.isPosting = false ∨ p.posting.ring.enabled = false) (n : Notice) :
    p.handNotice n = p := by
  refine if_pos ?_
  rcases h with h | h <;> simp [h]

section

variable (hp : p.isPosting = true) (he : p.posting.ring.enabled = true)
include hp he

theorem handNotice_written (hroom : p.noticeRoom = true) (hpending : p.posting.ring.pending = []) (n : Notice) :
    p.handNotice n = p.joinWriteList (.notice n) := by
  rw [handNotice, if_neg (by simp [hp, he]), if_pos (by simp [hroom, hpending])]

theorem handNotice_pending (h : ¬p.noticeRoom = true ∨ p.posting.ring.pending ≠ [])
    (hlen : p.posting.ring.pending.length < Config.pendingLimit) (n : Notice) :
    p.handNotice n = p.modRing fun r => { r with pending := r.pending ++ [n] } := by
  rw [handNotice, if_neg (by simp [hp, he]), if_neg (by simpa [imp_iff_not_or, or_comm] using h), if_pos hlen]

theorem handNotice_lost (h : ¬p.noticeRoom = true ∨ p.posting.ring.pending ≠ [])
    (hlen : Config.pendingLimit ≤ p.posting.ring.pending.length) (n : Notice) :
    p.handNotice n = p.modRing fun r => { r with lost := if r.lost < Config.lostLimit then r.lost + 1 else r.lost } := by
  rw [handNotice, if_neg (by simp [hp, he]), if_neg (by simpa [imp_iff_not_or, or_comm] using h),
    if_neg (Nat.not_lt.2 hlen)]

end

/-- R160: the room of the ring, as the statements write it. -/
theorem noticeRoom_iff : p.noticeRoom = true ↔
    (p.posting.ring.tail + p.posting.ring.size - p.posting.ring.head) % p.posting.ring.size + p.queuedNotices <
      p.posting.ring.size - 1 := decide_eq_true_iff

end Part

/-- Settles O23, by the ring, its room and its pending list. -/
theorem handedOverNotice : Obligations.HandedOverNotice := by
  intro p n
  refine ⟨fun h => Part.handNotice_discarded h n, fun hp he => ⟨fun hroom hpending => ?_, fun h hlen => ?_, fun h hlen => ?_⟩⟩
  · have hj := Part.joined_joinWriteList p (.notice n)
    rw [← Part.handNotice_written hp he (Part.noticeRoom_iff.2 hroom) hpending] at hj
    exact ⟨hj.writeList, hj.pending.trans hpending, Part.queuedNotices_of_writeList hj.writeList, hj.cqs, hj.rest⟩
  · rw [← Part.noticeRoom_iff] at h
    exact Part.handNotice_pending hp he h hlen n
  · rw [← Part.noticeRoom_iff] at h
    exact Part.handNotice_lost hp he h hlen n

end Sys2Proof.Machine
end

section
/-!
The answers of posting writes and the holdoff expiry (R154, R158, R159, R162, R165, R169).
-/

namespace Sys2Proof.Machine

/-- R158: the posting brings the unsignalled count to the threshold. -/
abbrev CompletionContext.Signals (q : CompletionContext) : Prop := q.unsignalled + 1 = q.threshold

/-- The context of a completion queue after a posting, counted for coalescing (R154, R158). -/
def CompletionContext.counted (q : CompletionContext) : CompletionContext :=
  { q.posted with
    unsignalled := if q.Signals then 0 else q.unsignalled + 1
    timer := if q.Signals then none else if 0 < q.holdoff ∧ q.timer = none then some (q.holdoff * 1024) else q.timer }

theorem CompletionContext.coalesce_posted (q : CompletionContext) :
    q.posted.coalesce = (q.counted, decide q.Signals) := by
  unfold coalesce counted
  by_cases h : q.Signals
  · rw [if_pos (show q.posted.unsignalled + 1 = q.posted.threshold from h), if_pos h, if_pos h, decide_eq_true h]
  · rw [if_neg (show ¬q.posted.unsignalled + 1 = q.posted.threshold from h), if_neg h, if_neg h, decide_eq_false h]
    simp only [Option.isNone_iff_eq_none]
    rfl

namespace Part

variable {p : Part} {a : Access} {n : Fin 4}

/-- R154, R158: a completion is posted. -/
theorem postCompletion_eq (p : Part) (n : Fin 4) : p.postCompletion n =
    (p.modCq n fun _ => (p.cq n).counted).modPosting fun u => { u with
      writeList := u.writeList.tail
      causes := if (p.cq n).Signals then u.causes ||| 1#7 <<< n.val else u.causes } := by
  unfold postCompletion
  rw [CompletionContext.coalesce_posted]
  by_cases h : (p.cq n).Signals
  · simp only [if_pos h, decide_eq_true h]
    rfl
  · simp only [if_neg h, decide_eq_false h]
    rfl

theorem completionWriteAnswered_live (ha : p.monitor.posting = some a) (hn : a.purpose = .completionWrite n)
    (hb : p.posting.abandoned = false) :
    p.completionWriteAnswered = some (p.endWrite.postCompletion n).issueNext := by
  unfold completionWriteAnswered
  simp only [ha, hn, hb, Bool.false_eq_true, if_false]

theorem completionWriteAnswered_abandoned (ha : p.monitor.posting = some a) (hn : a.purpose = .completionWrite n)
    (hb : p.posting.abandoned = true) : p.completionWriteAnswered = some p.endWrite.issueNext := by
  unfold completionWriteAnswered
  simp only [ha, hn, hb, if_true]

theorem noticeWriteAnswered_live (ha : p.monitor.posting = some a) (hn : a.purpose = .noticeWrite)
    (hb : p.posting.abandoned = false) : p.noticeWriteAnswered = some p.endWrite.postNotice.issueNext := by
  unfold noticeWriteAnswered
  simp only [ha, hn, hb, Bool.false_eq_true, if_false]

theorem noticeWriteAnswered_abandoned (ha : p.monitor.posting = some a) (hn : a.purpose = .noticeWrite)
    (hb : p.posting.abandoned = true) : p.noticeWriteAnswered = some p.endWrite.issueNext := by
  unfold noticeWriteAnswered
  simp only [ha, hn, hb, if_true]

/-- R159: a holdoff timer that has reached 0. -/
theorem holdoffExpiry_expired (h : (p.cq n).timer = some 0) : p.holdoffExpiry n =
    some ((p.modCq n fun q => { q with timer := none, unsignalled := 0 }).modPosting fun u =>
      { u with causes := if 0 < (p.cq n).unsignalled then u.causes ||| 1#7 <<< n.val else u.causes }) := by
  unfold holdoffExpiry
  rw [if_pos h]
  by_cases hu : 0 < (p.cq n).unsignalled
  · simp only [hu, if_true]
    rfl
  · simp only [hu, if_false]
    rfl

end Part

/-- Settles O24, by the item whose write is answered and by whether the write was abandoned; and the holdoff expiry. -/
theorem postedRecordsAndInterrupts : Obligations.PostedRecordsAndInterrupts := by
  refine ⟨fun s a hr ha => ⟨fun n hn hb => ?_, fun hn hb => ?_, fun n hn hb => ?_, fun hn hb => ?_⟩, fun s n hr hs ht => ?_⟩
  · have h := takes_settle (i := .completionWriteAnswered) (f := Part.completionWriteAnswered) rfl hr
      (Part.completionWriteAnswered_live ha hn hb)
    rw [Part.postCompletion_eq] at h
    exact h
  · exact takes_settle (i := .noticeWriteAnswered) (f := Part.noticeWriteAnswered) rfl hr
      (Part.noticeWriteAnswered_live ha hn hb)
  · exact takes_settle (i := .completionWriteAnswered) (f := Part.completionWriteAnswered) rfl hr
      (Part.completionWriteAnswered_abandoned ha hn hb)
  · exact takes_settle (i := .noticeWriteAnswered) (f := Part.noticeWriteAnswered) rfl hr
      (Part.noticeWriteAnswered_abandoned ha hn hb)
  · exact takes_of_settled (i := .holdoffExpiry n) (f := Part.holdoffExpiry n) rfl hr (Part.holdoffExpiry_expired ht) hs

end Sys2Proof.Machine
end

section
/-!
CONSUME that is accepted (R156, R157, R163, R190).
-/

namespace Sys2Proof.Machine

namespace Part

variable {p p' : Part}

/-- How many more notices the write list may take (R160). -/
def noticesLeft (p : Part) : Nat := p.posting.ring.size - 1 - (p.posting.ring.occupied + p.queuedNotices)

theorem noticeRoom_iff_left : p.noticeRoom = true ↔ 0 < p.noticesLeft := by
  unfold noticeRoom noticesLeft
  rw [decide_eq_true_iff]
  omega

/-- The first `moved` pending notices have moved to the write list (R163); the Posting Unit's other fields are as they were, but
for what the issue of the oldest item changes. -/
structure Moved (moved : Nat) (p p' : Part) : Prop where
  rest : p' = { p with posting := p'.posting, monitor := { p.monitor with posting := p'.monitor.posting } }
  writeList : p'.posting.writeList = p.posting.writeList ++ (p.posting.ring.pending.take moved).map Item.notice
  pending : p'.posting.ring.pending = p.posting.ring.pending.drop moved
  ring : { p'.posting.ring with
    sequence := p.posting.ring.sequence, lost := p.posting.ring.lost, pending := p.posting.ring.pending } = p.posting.ring
  cqs : p'.posting.cqs = p.posting.cqs
  causes : p'.posting.causes = p.posting.causes

theorem Moved.refl (p : Part) : Moved 0 p p := ⟨rfl, by simp, rfl, rfl, rfl, rfl⟩

/-- The oldest pending notice moves (R163). -/
def moveOldest (p : Part) (n : Notice) (rest : List Notice) : Part :=
  (p.modRing fun r => { r with pending := rest }).joinWriteList (.notice n)

theorem moved_moveOldest {n : Notice} {rest : List Notice} (h : p.posting.ring.pending = n :: rest) :
    Moved 1 p (p.moveOldest n rest) := by
  have hj := joined_joinWriteList (p.modRing fun r => { r with pending := rest }) (.notice n)
  refine ⟨hj.rest, ?_, ?_, ?_, hj.cqs, hj.causes⟩
  · rw [h]
    exact hj.writeList
  · rw [h]
    exact hj.pending
  · have hring := congrArg (fun r : NoticeRing => { r with pending := p.posting.ring.pending }) hj.ring
    exact hring

/-- R160: a notice that has moved takes up the room of one. -/
theorem noticesLeft_moveOldest {n : Notice} {rest : List Notice} (h : p.posting.ring.pending = n :: rest) :
    (p.moveOldest n rest).noticesLeft = p.noticesLeft - 1 := by
  have hm := moved_moveOldest h
  have hlist : (p.moveOldest n rest).posting.writeList = p.posting.writeList ++ [.notice n] := by
    rw [hm.writeList, h]
    rfl
  have hsize : (p.moveOldest n rest).posting.ring.size = p.posting.ring.size := (congrArg NoticeRing.size hm.ring :)
  have hoccupied : (p.moveOldest n rest).posting.ring.occupied = p.posting.ring.occupied :=
    (congrArg NoticeRing.occupied hm.ring :)
  unfold noticesLeft
  rw [hsize, hoccupied, queuedNotices_of_writeList hlist]
  omega

theorem Moved.succ {n : Notice} {rest : List Notice} {moved : Nat} (h : p.posting.ring.pending = n :: rest)
    (hm : Moved moved (p.moveOldest n rest) p') : Moved (moved + 1) p p' := by
  have h1 := moved_moveOldest h
  have hpending : (p.moveOldest n rest).posting.ring.pending = rest := by
    rw [h1.pending, h]
    rfl
  refine ⟨?_, ?_, ?_, ?_, hm.cqs.trans h1.cqs, hm.causes.trans h1.causes⟩
  · rw [hm.rest, h1.rest]
  · rw [hm.writeList, h1.writeList, hpending, h, List.append_assoc]
    rfl
  · rw [hm.pending, hpending, h]
    rfl
  · have hring := congrArg (fun r : NoticeRing => { r with
      sequence := p.posting.ring.sequence, lost := p.posting.ring.lost, pending := p.posting.ring.pending }) hm.ring
    exact hring.trans h1.ring

/-- R163: the oldest pending notices move, as many as there are and the ring has room for. -/
theorem moved_movePending (fuel : Nat) (p : Part) (h : p.posting.ring.pending.length ≤ fuel) :
    Moved (min p.noticesLeft p.posting.ring.pending.length) p (movePending fuel p) := by
  induction fuel generalizing p with
  | zero =>
    rw [Nat.le_zero.1 h, Nat.min_zero]
    exact .refl p
  | succ fuel ih =>
    unfold movePending
    cases hpending : p.posting.ring.pending with
    | nil =>
      dsimp only
      rw [List.length_nil, Nat.min_zero]
      exact .refl p
    | cons n rest =>
      have hrest : (p.moveOldest n rest).posting.ring.pending = rest := by
        rw [(moved_moveOldest hpending).pending, hpending]
        rfl
      dsimp only
      split
      · rename_i hroom
        have hleft := noticeRoom_iff_left.1 hroom
        have hm := ih (p.moveOldest n rest) (by rw [hrest]; rw [hpending] at h; exact Nat.le_of_succ_le_succ h)
        rw [noticesLeft_moveOldest hpending, hrest] at hm
        rw [show min p.noticesLeft (n :: rest).length = min (p.noticesLeft - 1) rest.length + 1 by
          rw [List.length_cons]; omega]
        exact hm.succ hpending
      · rename_i hroom
        rw [show p.noticesLeft = 0 from Nat.eq_zero_of_not_pos (hroom ∘ noticeRoom_iff_left.2), Nat.zero_min]
        exact .refl p

/-! ### The targets of CONSUME -/

theorem consumeCq_taken {n : Fin 4} {index : Nat} (he : (p.cq n).enabled = true) (hi : index < (p.cq n).size)
    (hd : ringDistance (p.cq n).size (p.cq n).head index ≤ (p.cq n).occupied) :
    p.consumeCq n index = p.modCq n fun q => { q with head := index } :=
  if_pos (by simp [he, hi, hd])

theorem consumeRing_taken {index : Nat} (he : p.posting.ring.enabled = true) (hi : index < p.posting.ring.size)
    (hd : ringDistance p.posting.ring.size p.posting.ring.head index ≤ p.posting.ring.occupied) :
    p.consumeRing index = movePending p.posting.ring.pending.length (p.modRing fun r => { r with head := index }) :=
  if_pos (by simp [he, hi, hd])

section

variable (ha : p.engine.state = .running ∨ p.engine.state = .halting ∨ p.engine.state = .halted)
include ha

/-- A completion queue's own number as the target of CONSUME. -/
theorem consume_cq (n : Fin 4) (index : BitVec 16) :
    p.consume (BitVec.ofNat 4 n.val) index = p.consumeCq n index.toNat := by
  have hn : (BitVec.ofNat 4 n.val).toNat = n.val := by rw [BitVec.toNat_ofNat]; omega
  rw [consume_eq, if_neg (not_not_intro (consumeAccepted_iff.2 ha)), hn, if_pos n.isLt, finOfNat_of_lt n.isLt]

theorem consume_ring (index : BitVec 16) : p.consume 8 index = p.consumeRing index.toNat := by
  rw [consume_eq, if_neg (not_not_intro (consumeAccepted_iff.2 ha))]
  rfl

end

/-! ### The end of a HALT -/

theorem noneTripping_iff : p.noneTripping = true ↔ ∀ d : Fin 8, (p.domain d).state ≠ .tripping := by
  simp [noneTripping, domain, Fin.forall_iff]

theorem drained_iff : p.drained = true ↔
    p.posting.writeList = [] ∧ p.monitor.posting = none ∧ p.posting.ring.pending = [] := by
  simp [drained, and_assoc]

/-- R190: all that a HALTING engine waits for. -/
theorem haltComplete_iff : p.haltComplete = true ↔ (∀ d : Fin 8, (p.domain d).state ≠ .tripping) ∧
    p.posting.writeList = [] ∧ p.posting.ring.pending = [] ∧ p.monitor.posting = none ∧ p.command.path = .free := by
  rw [haltComplete, Bool.and_eq_true, Bool.and_eq_true, noneTripping_iff, drained_iff, beq_iff_eq]
  tauto

theorem movePending_nil (fuel : Nat) (h : p.posting.ring.pending = []) : movePending fuel p = p := by
  cases fuel with
  | zero => rfl
  | succ fuel =>
    unfold movePending
    rw [h]

/-- The notices that move are still to be written: moving them drains nothing. -/
theorem haltComplete_movePending (p : Part) :
    (movePending p.posting.ring.pending.length p).haltComplete = p.haltComplete := by
  by_cases h : p.posting.ring.pending = []
  · rw [movePending_nil _ h]
  have hm := moved_movePending _ p le_rfl
  generalize min p.noticesLeft p.posting.ring.pending.length = moved at hm
  generalize movePending p.posting.ring.pending.length p = p' at hm
  have hleft : ¬p'.haltComplete = true := fun hc => by
    obtain ⟨-, hlist, hpending, -, -⟩ := haltComplete_iff.1 hc
    rw [hm.writeList, List.append_eq_nil_iff, List.map_eq_nil_iff] at hlist
    rw [hm.pending] at hpending
    refine h ?_
    rw [← List.take_append_drop moved p.posting.ring.pending, hlist.2, hpending]
    rfl
  have hright : ¬p.haltComplete = true := fun hc => by
    obtain ⟨-, -, hpending, -, -⟩ := haltComplete_iff.1 hc
    exact h hpending
  rw [Bool.not_eq_true] at hleft hright
  rw [hleft, hright]

end Part

theorem exec_consume (target : BitVec 4) (index : BitVec 16) (s : State) :
    exec (.consume target index) s = event (fun p => some (p.consume target index)) s := rfl

/-- The part after the head of the notice ring has moved and pending notices with it, before the end of the event. -/
def Part.ringConsumed (p : Part) (index : Nat) : Part :=
  movePending p.posting.ring.pending.length (p.modRing fun r => { r with head := index })

/-- R190: what the end of the event leaves of the engine and the causes. -/
theorem Part.checkHalted_rest {p T : Part} (h : p = { T with engine := p.engine, posting := p.posting, monitor := p.monitor }) :
    p.checkHalted = { T with
      engine := p.checkHalted.engine, posting := p.checkHalted.posting, monitor := p.checkHalted.monitor } := by
  unfold Part.checkHalted
  split
  · exact congrArg (fun x : Part => (x.modEngine fun e => { e with state := .halted }).setCause engineCause) h
  · exact h

/-- A CONSUME on the notice ring ends in what R190 does with a HALTING engine. -/
theorem consume_ring_takes {s : State} {index : BitVec 16} (hr : s.part.resetAsserted = false)
    (ha : s.part.engine.state = .running ∨ s.part.engine.state = .halting ∨ s.part.engine.state = .halted)
    (hw : s.part.writesAllowed = true) (he : s.part.posting.ring.enabled = true)
    (hi : index.toNat < s.part.posting.ring.size)
    (hd : ringDistance s.part.posting.ring.size s.part.posting.ring.head index.toNat ≤ s.part.posting.ring.occupied) :
    takes (.consume 8 index) s (s.part.ringConsumed index.toNat).checkHalted := by
  have hconsume : s.part.consume 8 index = s.part.ringConsumed index.toNat :=
    (Part.consume_ring ha index).trans (Part.consumeRing_taken he hi hd)
  have hfault := ((Part.calm_of_writesAllowed hw).consume 8 index).fault
  have ht := takes_settle (exec_consume 8 index s) hr rfl
  rw [hconsume] at hfault ht
  rwa [Part.settle, Part.checkFault, hfault] at ht

/-- Settles O16: the completion queues, and the notice ring with its pending notices and the end of a HALT. -/
theorem consumeMovesTheHead : Obligations.ConsumeMovesTheHead := by
  intro s index hr ha
  refine ⟨fun n hs he hi hd => ?_, fun hw he hi hd => ?_⟩
  · refine takes_of_settled (exec_consume _ index s) hr ?_ hs
    rw [Part.consume_cq ha, Part.consumeCq_taken he hi hd]
  · refine ⟨_, consume_ring_takes hr ha hw he hi hd, ?_⟩
    have hm := Part.moved_movePending _ (s.part.modRing fun r => { r with head := index.toNat }) le_rfl
    have hcomplete : (s.part.ringConsumed index.toNat).haltComplete = s.part.haltComplete :=
      Part.haltComplete_movePending (s.part.modRing fun r => { r with head := index.toNat })
    change Part.Moved _ _ (s.part.ringConsumed index.toNat) at hm
    beta_reduce
    intro before room moved drained
    have hdrained : drained ↔ s.part.engine.state = .halting ∧ s.part.haltComplete = true :=
      and_congr_right' Part.haltComplete_iff.symm
    generalize s.part.ringConsumed index.toNat = p at hm hcomplete ⊢
    have hengine : p.engine = s.part.engine := (congrArg Part.engine hm.rest :)
    have hhead : p.posting.ring.head = index.toNat := (congrArg NoticeRing.head hm.ring :)
    have htail : p.posting.ring.tail = before.tail := (congrArg NoticeRing.tail hm.ring :)
    have hphase : p.posting.ring.phase = before.phase := (congrArg NoticeRing.phase hm.ring :)
    refine ⟨Part.checkHalted_rest (by rw [hm.rest]; rfl), ?_⟩
    rw [← hengine, ← hcomplete] at hdrained
    by_cases h : drained
    · rw [if_pos h, if_pos h, Part.checkHalted, if_pos (hdrained.1 h)]
      exact ⟨congrArg (fun e : Engine => { e with state := .halted }) hengine, hm.writeList, hm.pending, hhead, htail, hphase,
        hm.cqs, congrArg (· ||| engineCause) hm.causes⟩
    · rw [if_neg h, if_neg h, Part.checkHalted, if_neg (h ∘ hdrained.2)]
      exact ⟨hengine, hm.writeList, hm.pending, hhead, htail, hphase, hm.cqs, hm.causes⟩

end Sys2Proof.Machine
end

section
/-!
The registers (R166, R182, R184, R195).
-/

namespace Sys2Proof.Machine

/-! ### The words of the configuration base -/

/-- Two halves that lie side by side, as the numbers they stand for. -/
theorem append_eq_ofNat (high low : BitVec 32) : high ++ low = BitVec.ofNat 64 (high.toNat * 2 ^ 32 + low.toNat) := by
  apply BitVec.eq_of_toNat_eq
  have hhigh := high.isLt
  have hlow := low.isLt
  rw [BitVec.toNat_append, ← Nat.shiftLeft_add_eq_or_of_lt hlow, Nat.shiftLeft_eq, BitVec.toNat_ofNat]
  omega

/-- CONFIG BASE LOW drops the six lowest bits (R182). -/
theorem toNat_and_alignment (value : BitVec 32) : (value &&& 0xFFFFFFC0).toNat = value.toNat / 64 * 64 := by
  have hmask : (0xFFFFFFC0 : BitVec 32) = BitVec.allOnes 32 <<< 6 := rfl
  have h : value &&& BitVec.allOnes 32 <<< 6 = (value >>> 6) <<< 6 := by
    ext i hi
    simp only [BitVec.getElem_and, BitVec.getElem_shiftLeft, BitVec.getElem_allOnes, BitVec.getElem_ushiftRight]
    by_cases hlow : i < 6
    · simp [hlow]
    · simp [hlow, Nat.add_sub_cancel' (Nat.le_of_not_lt hlow), BitVec.getLsbD_eq_getElem hi]
  rw [hmask, h, BitVec.toNat_shiftLeft, BitVec.toNat_ushiftRight, Nat.shiftRight_eq_div_pow, Nat.shiftLeft_eq]
  omega

theorem toNat_highHalf (base : BitVec 64) : (base.extractLsb' 32 32).toNat = base.toNat / 2 ^ 32 := by
  rw [BitVec.extractLsb'_toNat, Nat.shiftRight_eq_div_pow]
  omega

theorem toNat_lowHalf (base : BitVec 64) : (base.extractLsb' 0 32).toNat = base.toNat % 2 ^ 32 := by
  rw [BitVec.extractLsb'_toNat, Nat.shiftRight_zero]

/-! ### STATE -/

theorem EngineState.code_le (e : EngineState) : e.code ≤ 5 := by cases e <;> decide

theorem LoadFault.code_le (f : LoadFault) : f.code ≤ 7 := by cases f <;> decide

theorem fatalReasonCode_le : ∀ r : Option FatalReason, fatalReasonCode r ≤ 6
  | none => Nat.zero_le 6
  | some r => by cases r <;> decide

theorem fatalRingCode_le : ∀ r : Option FatalRing, fatalRingCode r ≤ 5
  | none => Nat.zero_le 5
  | some .noticeRing => le_rfl
  | some (.cq n) => n.isLt.trans (by decide)

theorem LastRefused.code_le (r : LastRefused) : r.code ≤ 3 := by cases r <;> decide

/-- A field of a word is cut out by division. -/
theorem extractLsb'_ofNat_word (word k w : Nat) (h : k + w ≤ 32) :
    (BitVec.ofNat 32 word).extractLsb' k w = BitVec.ofNat w (word / 2 ^ k) := by
  ext i hi
  rw [BitVec.getElem_extractLsb', BitVec.getLsbD_ofNat, ← BitVec.getLsbD_eq_getElem hi, BitVec.getLsbD_ofNat,
    Nat.testBit_div_two_pow, decide_eq_true (show k + i < 32 by omega), decide_eq_true hi, Nat.add_comm]

/-- R184: each field of STATE is the code of its part of the engine record. -/
theorem Engine.stateWord_fields (e : Engine) :
    e.stateWord.extractLsb' 0 4 = BitVec.ofNat 4 e.state.code ∧
    e.stateWord.extractLsb' 4 4 = BitVec.ofNat 4 e.loadFault.code ∧
    e.stateWord.extractLsb' 8 4 = BitVec.ofNat 4 (fatalReasonCode e.fatalReason) ∧
    e.stateWord.extractLsb' 12 4 = BitVec.ofNat 4 (fatalRingCode e.fatalRing) ∧
    e.stateWord.extractLsb' 16 4 = BitVec.ofNat 4 e.lastRefused.code ∧
    e.stateWord.extractLsb' 20 12 = 0 := by
  have hstate := e.state.code_le
  have hload := e.loadFault.code_le
  have hreason := fatalReasonCode_le e.fatalReason
  have hring := fatalRingCode_le e.fatalRing
  have hrefused := e.lastRefused.code_le
  unfold stateWord
  refine ⟨?_, ?_, ?_, ?_, ?_, ?_⟩ <;>
  · rw [extractLsb'_ofNat_word _ _ _ (by decide)]
    apply BitVec.eq_of_toNat_eq
    simp only [BitVec.toNat_ofNat, BitVec.ofNat_eq_ofNat]
    omega

/-! ### Reads and writes -/

theorem configBase_halves (base : BitVec 64) : (base >>> 32).setWidth 32 ++ base.setWidth 32 = base := by
  apply BitVec.eq_of_toNat_eq
  have h := base.isLt
  rw [append_eq_ofNat]
  simp only [BitVec.toNat_ofNat, BitVec.toNat_setWidth, BitVec.toNat_ushiftRight, Nat.shiftRight_eq_div_pow]
  omega

theorem Posting.irqAsserted_iff (u : Posting) :
    u.irqAsserted = true ↔ ∃ n : Fin 7, u.causes.getLsbD n.val = true ∧ u.enables.getLsbD n.val = true := by
  have hzero : u.causes &&& u.enables = 0 ↔ ∀ n < 7, (u.causes.getLsbD n && u.enables.getLsbD n) = false := by
    simp [BitVec.eq_of_getLsbD_eq_iff]
  rw [irqAsserted, bne_iff_ne, ne_eq, hzero]
  simp only [Fin.exists_iff, exists_prop, not_forall, Bool.not_eq_false, Bool.and_eq_true]

/-- A register takes its value at once: a write is an event of its own. -/
theorem takes_registerWrite {s : State} {p : Part} {offset : BitVec 8} {value : BitVec 32}
    (hr : s.part.resetAsserted = false) (hp : s.part.registerWrite offset value = p) (hs : p.settled = true) :
    takes (.registerWrite offset value) s p :=
  takes_of_settled (f := fun p => some (p.registerWrite offset value)) rfl hr (congrArg some hp) hs

/-- Settles O12: writes to the base, reads, writes to the interrupt registers, and IRQn. -/
theorem registerWindow : Obligations.RegisterWindow := by
  refine ⟨fun s value hr hs => ?_, fun p hp => ?_, fun s value hr hs => ⟨?_, ?_⟩, Posting.irqAsserted_iff⟩
  · refine ⟨?_, ?_, takes_registerWrite hr rfl hs, takes_registerWrite hr rfl hs⟩
    · rw [← toNat_and_alignment, ← toNat_highHalf, ← append_eq_ofNat]
      exact takes_registerWrite hr rfl hs
    · rw [← toNat_lowHalf, ← append_eq_ofNat]
      exact takes_registerWrite hr rfl hs
  · intro e
    have hrun : ¬p.resetAsserted = true := by simp [hp]
    have hstate : readRegister p 0x14 = e.stateWord := if_neg hrun
    have hlow : readRegister p 0x08 = e.configBase.setWidth 32 := if_neg hrun
    have hhigh : readRegister p 0x0C = (e.configBase >>> 32).setWidth 32 := if_neg hrun
    rw [hstate, hlow, hhigh]
    exact ⟨e.stateWord_fields, if_neg hrun, if_neg hrun, if_neg hrun, configBase_halves _, if_neg hrun, if_neg hrun⟩
  · refine ⟨_, fun n => ?_, takes_of_settled (f := fun p => some (p.intCauseWrite value)) rfl hr rfl hs⟩
    rw [BitVec.getLsbD_and, BitVec.getLsbD_not, BitVec.getLsbD_setWidth]
    simp [n.isLt]
  · refine ⟨_, fun n => ?_, takes_of_settled (f := fun p => some (p.intEnableWrite value)) rfl hr rfl hs⟩
    simp [n.isLt]

end Sys2Proof.Machine
end

section
/-!
The Memory Access Monitor: the check of an access (R173), and the tests of the Configuration Block (R186, R172, R196).
-/

namespace Sys2Proof.Machine

/-! ### Tables of entries -/

/-- A test of every entry of a table, entry by entry. -/
theorem all_entries_iff {α : Type} {n : Nat} (entries : Vector α n) (test : α → Bool) :
    entries.toList.all test = true ↔ ∀ i : Fin n, test entries[i] = true := by
  rw [Vector.all_toList, Vector.all_eq_true, Fin.forall_iff]
  rfl

/-- A test that some entry of a table meets. -/
theorem any_entry_iff {α : Type} {n : Nat} (entries : Vector α n) (test : α → Bool) :
    entries.toList.any test = true ↔ ∃ i : Fin n, test entries[i] = true := by
  rw [Vector.any_toList, Vector.any_eq_true, Fin.exists_iff]
  rfl

/-! ### The window table -/

theorem MemoryWindow.allows_iff (w : MemoryWindow) (write : Bool) (address length : Nat) :
    w.allows write address length = true ↔
      0 < w.length ∧ w.base ≤ address ∧ address + length ≤ w.base + w.length ∧
        (if write then w.allowWrite else w.allowRead) = true := by
  simp only [MemoryWindow.allows, Bool.and_eq_true, decide_eq_true_eq, and_assoc]

/-- Settles O21: the table holds a window that allows the access. -/
theorem windowCheck : Obligations.WindowCheck := by
  intro m write address length
  rw [Monitor.allows, Bool.and_eq_true, decide_eq_true_eq, any_entry_iff]
  exact and_congr_right fun _ => exists_congr fun w => m.windows[w].allows_iff write address length

/-! ### The tests of the Configuration Block, one by one -/

/-- The ring sizes that tests 3 to 5 take: the powers of two from 8 up to a limit. -/
def IsRingSize (limit size : Nat) : Prop := ∃ n : Nat, 3 ≤ n ∧ 2 ^ n ≤ limit ∧ size = 2 ^ n

/-- The list of sizes that `ringSizeValid` looks through is that of 2^3 to 2^12. -/
theorem contains_ringSizes_iff (size : Nat) :
    [8, 16, 32, 64, 128, 256, 512, 1024, 2048, 4096].contains size = true ↔ ∃ n : Nat, 3 ≤ n ∧ n ≤ 12 ∧ size = 2 ^ n := by
  have hsizes : [8, 16, 32, 64, 128, 256, 512, 1024, 2048, 4096] = (List.range' 3 10).map (2 ^ ·) := rfl
  rw [hsizes, List.contains_iff_mem, List.mem_map]
  refine exists_congr fun n => ?_
  rw [List.mem_range'_1, and_assoc, Nat.lt_succ_iff, eq_comm]

theorem ringSizeValid_iff {limit : Nat} (hlimit : limit ≤ 2 ^ 12) (size : Nat) :
    ringSizeValid limit size = true ↔ IsRingSize limit size := by
  rw [ringSizeValid, Bool.and_eq_true, contains_ringSizes_iff, decide_eq_true_eq]
  constructor
  · rintro ⟨⟨n, hmin, -, rfl⟩, hle⟩
    exact ⟨n, hmin, hle, rfl⟩
  · rintro ⟨n, hmin, hle, rfl⟩
    have hmax : n ≤ 12 := (Nat.pow_le_pow_iff_right Nat.one_lt_two).mp (hle.trans hlimit)
    exact ⟨⟨n, hmin, hmax, rfl⟩, hle⟩

/-- A test that is made only where a flag is set. -/
theorem not_or_eq_true_iff (flag test : Bool) : (!flag || test) = true ↔ (flag = true → test = true) := by
  cases flag <;> simp

/-- Test 3, for one submission queue. -/
def QueueEntry.RingPasses (e : QueueEntry) : Prop :=
  e.enabled = true →
    IsRingSize 4096 e.size ∧ e.base % 64 = 0 ∧ e.base + 64 * e.size ≤ 2 ^ 64 ∧ e.quota ≤ 1024 ∧ e.priority ≤ 1

theorem QueueEntry.ringValid_iff (e : QueueEntry) : e.ringValid = true ↔ e.RingPasses := by
  simp only [ringValid, RingPasses, not_or_eq_true_iff, Bool.and_eq_true, beq_iff_eq, decide_eq_true_eq, and_assoc,
    ringSizeValid_iff (limit := 4096) (by decide)]

/-- Test 4, for one completion queue. -/
def CompletionEntry.RingPasses (e : CompletionEntry) : Prop :=
  e.enabled = true →
    IsRingSize 4096 e.size ∧ e.base % 16 = 0 ∧ e.base + 16 * e.size ≤ 2 ^ 64 ∧ 1 ≤ e.threshold ∧ e.threshold ≤ 255

theorem CompletionEntry.ringValid_iff (e : CompletionEntry) : e.ringValid = true ↔ e.RingPasses := by
  simp only [ringValid, RingPasses, not_or_eq_true_iff, Bool.and_eq_true, beq_iff_eq, decide_eq_true_eq, and_assoc,
    ringSizeValid_iff (limit := 4096) (by decide)]

/-- Test 5, for the notice ring. -/
def Block.NoticePasses (b : Block) : Prop :=
  b.noticeEnabled = true →
    IsRingSize 1024 b.noticeSize ∧ b.noticeBase % 32 = 0 ∧ b.noticeBase + 32 * b.noticeSize ≤ 2 ^ 64

theorem Block.noticeValid_iff (b : Block) : b.noticeValid = true ↔ b.NoticePasses := by
  simp only [noticeValid, NoticePasses, not_or_eq_true_iff, Bool.and_eq_true, beq_iff_eq, decide_eq_true_eq, and_assoc,
    ringSizeValid_iff (limit := 1024) (by decide)]

/-- Test 6, for one submission queue. -/
def Block.BindingPasses (b : Block) (e : QueueEntry) : Prop :=
  e.enabled = true → ∃ h : e.cq < 4, (b.cqs[e.cq]'h).enabled = true

theorem Block.bindingValid_iff (b : Block) (e : QueueEntry) : b.bindingValid e = true ↔ b.BindingPasses e := by
  rw [bindingValid, not_or_eq_true_iff]
  refine imp_congr_right fun _ => ?_
  by_cases hcq : e.cq < 4
  · rw [dif_pos hcq, exists_prop_of_true hcq]
  · rw [dif_neg hcq, eq_false (exists_prop_of_false hcq), Bool.false_eq_true]

/-- No permission other than READ and WRITE is named (R196). -/
theorem and_reserved_permissions_eq_zero_iff : ∀ permissions : BitVec 8,
    permissions &&& 0b11111100 = 0 ↔ permissions.toNat < 4 := by
  decide

/-- Test 7, for one window (R172). -/
def WindowEntry.Passes (e : WindowEntry) : Prop :=
  e.length ≠ 0 →
    e.base % 4096 = 0 ∧ e.length % 4096 = 0 ∧ e.base + e.length ≤ 2 ^ 64 ∧ e.permissions.toNat < 4

theorem WindowEntry.valid_iff (e : WindowEntry) : e.valid = true ↔ e.Passes := by
  simp only [valid, Passes, Bool.or_eq_true, Bool.and_eq_true, beq_iff_eq, decide_eq_true_eq, and_assoc,
    and_reserved_permissions_eq_zero_iff, ne_eq, or_iff_not_imp_left]

/-! ### The tests of the Configuration Block in order -/

theorem Block.ringTests_iff (b : Block) :
    (b.queues.toList.all QueueEntry.ringValid && b.cqs.toList.all CompletionEntry.ringValid && b.noticeValid) = true ↔
      (∀ n : Fin 8, b.queues[n].RingPasses) ∧ (∀ n : Fin 4, b.cqs[n].RingPasses) ∧ b.NoticePasses := by
  simp only [Bool.and_eq_true, all_entries_iff, QueueEntry.ringValid_iff, CompletionEntry.ringValid_iff,
    b.noticeValid_iff, and_assoc]

theorem Block.bindingTest_iff (b : Block) :
    b.queues.toList.all b.bindingValid = true ↔ ∀ n : Fin 8, b.BindingPasses b.queues[n] := by
  simp only [all_entries_iff, b.bindingValid_iff]

theorem Block.windowTest_iff (b : Block) :
    (decide (1 ≤ b.timeout) && b.windows.toList.all WindowEntry.valid) = true ↔
      1 ≤ b.timeout ∧ ∀ w : Fin 8, b.windows[w].Passes := by
  simp only [Bool.and_eq_true, decide_eq_true_eq, all_entries_iff, WindowEntry.valid_iff]

/-- The branch of a failed test, with the test as a proposition. -/
theorem ite_not_eq_left {α : Type} {test : Bool} {P : Prop} {x y : α} (htest : test = true ↔ P) (h : ¬P) :
    (if (!test) = true then x else y) = x :=
  if_pos ((Bool.not_eq_true' test).mpr (Bool.eq_false_iff.mpr (mt htest.mp h)))

/-- The branch of a test that passes, with the test as a proposition. -/
theorem ite_not_eq_right {α : Type} {test : Bool} {P : Prop} {x y : α} (htest : test = true ↔ P) (h : P) :
    (if (!test) = true then x else y) = y := by
  rw [htest.mpr h]
  rfl

/-- Settles O9: the chain of tests, with one more of its branches taken in each clause. -/
theorem blockTestsInOrder : Obligations.BlockTestsInOrder := by
  intro b
  unfold Block.loadFault
  refine ⟨fun hmagic => if_pos hmagic, fun (hmagic : b.magic = Config.blockMagic) hversion => ?_,
    fun (hmagic : b.magic = Config.blockMagic) (hversion : b.version = Config.blockVersion) => ?_⟩
  · rw [if_neg (not_not_intro hmagic)]
    exact if_pos hversion
  rw [if_neg (not_not_intro hmagic), if_neg (not_not_intro hversion)]
  refine ⟨ite_not_eq_left b.ringTests_iff, fun hqueues hcqs hnotice => ?_⟩
  rw [ite_not_eq_right b.ringTests_iff ⟨hqueues, hcqs, hnotice⟩]
  refine ⟨ite_not_eq_left b.bindingTest_iff, fun hbindings => ?_⟩
  rw [ite_not_eq_right b.bindingTest_iff hbindings]
  exact ⟨ite_not_eq_left b.windowTest_iff, ite_not_eq_right b.windowTest_iff⟩

end Sys2Proof.Machine
end

section
/-!
RESETn (R181), and the end of a HALT (R190).
-/

namespace Sys2Proof.Machine

/-! ### RESETn asserted -/

/-- R181: while RESETn is asserted no event is taken. -/
theorem event_resetAsserted {s : State} (h : s.part.resetAsserted = true) (f : Part → Option Part) :
    event f s = .next s := if_pos h

theorem exec_resetAsserted {s : State} (h : s.part.resetAsserted = true) {i : Instr} (hi : i ≠ .hardReset)
    (hn : i ≠ .resetnNegated) : exec i s = .next s := by
  rw [exec_eq_event hi hn, event_resetAsserted h]

theorem readRegister_resetAsserted {p : Part} (h : p.resetAsserted = true) (offset : BitVec 8) :
    readRegister p offset = 0 := if_pos h

theorem takes_hardReset (s : State) : takes .hardReset s s.part.hardReset := rfl

theorem takes_resetnNegated (s : State) : takes .resetnNegated s s.part.resetnNegated := rfl

/-- Settles O4: the two edges of RESETn, and the events and the reads while it is asserted. -/
theorem resetnPin : Obligations.ResetnPin :=
  ⟨fun s => ⟨takes_hardReset s, takes_resetnNegated s⟩,
    fun _ h => ⟨fun _ hi hn => exec_resetAsserted h hi hn, readRegister_resetAsserted h⟩⟩

/-! ### The end of a HALT -/

namespace Part

variable {p : Part}

/-- With no posting fault met, the end of an event is the end of a HALT at most. -/
theorem settle_eq_checkHalted (h : p.posting.fault = none) : p.settle = p.checkHalted := by
  rw [settle, checkFault, h]

end Part

/-- Settles O8: with no posting fault met, only the end of a HALT is left to Engine Control. -/
theorem haltingEndsWhenDrained : Obligations.HaltingEndsWhenDrained := by
  intro p hfault
  rw [Part.settle_eq_checkHalted hfault]
  have hcomplete : p.haltComplete = true ↔ (∀ d : Fin 8, (p.domain d).state ≠ .tripping) ∧ p.posting.writeList = [] ∧
      p.monitor.posting = none ∧ p.posting.ring.pending = [] ∧ p.command.path = .free := by
    rw [Part.haltComplete_iff, and_left_comm (a := p.posting.ring.pending = [])]
  exact if_congr (and_congr_right fun _ => hcomplete) rfl rfl

end Sys2Proof.Machine
end

section
/-!
Why no step makes both channels of an enabled pair active (R34): every change of the part keeps the law of the guard at each pair,
and a hard reset disables every pair.
-/

namespace Sys2Proof.Machine

namespace PairView

variable {v v' : PairView}

/-- The law of the guard reads which levels are active and the levels of the two channels. -/
theorem Safe.congr (h : v.Safe) (active : ∀ l, v'.pair.isActive l = v.pair.isActive l)
    (level : ∀ side, (v'.get side).level = (v.get side).level) : v'.Safe := by
  have hlower : v'.lower.level = v.lower.level := level .lower
  have hupper : v'.upper.level = v.upper.level := level .upper
  rw [Safe, active, active, hlower, hupper]
  exact h

end PairView

namespace Part

variable {W : Fin 4 → Prop} {L R : Prop} {p p' : Part}

theorem pairsSafe_iff : p.pairsSafe = true ↔ ∀ k, (p.pairView k).Safe := by
  simp only [pairsSafe, pairSafe, List.all_eq_true, List.mem_finRange, true_implies, Bool.not_eq_true', Bool.and_eq_false_iff,
    PairView.Safe, not_and_or, Bool.not_eq_true]
  exact Iff.rfl

theorem get_pairView_level (h : ∀ c, (p'.channel c).level = (p.channel c).level) (k : Fin 16) (side : Side) :
    ((p'.pairView k).get side).level = ((p.pairView k).get side).level := by
  rw [get_pairView, get_pairView]
  exact h _

/-- Every move keeps the law of the guard: the levels and the pairs' configuration stay, or the guard answers. -/
theorem Move.pairSafe (m : Move W p p') (k : Fin 16) (h : (p.pairView k).Safe) : (p'.pairView k).Safe := by
  have same (ho : p'.output = p.output) : (p'.pairView k).Safe := (pairView_of_output ho k).symm ▸ h
  have guarded (k' : Fin 16) (v : PairView) (hv : PairView.Sound (p.pairView k') v) :
      ((p.setPairView k' v).pairView k).Safe := by
    rw [pairView_setPairView]
    split
    · rename_i hk
      exact hv.safe (hk ▸ h)
    · exact h
  cases m with
  | completion n c _ => exact same (handCompletion_output ..)
  | notice n => exact same (handNotice_output ..)
  | resolve o s => exact same (resolve_output ..)
  | channel c f hl _ =>
    refine h.congr (fun _ => rfl) (get_pairView_level (fun c' => ?_) k)
    rw [channel_modChannel]
    split
    · rename_i hc
      rw [hl, hc]
    · rfl
  | guarded k' lo up => exact guarded k' _ (PairView.sound_batch ..)
  | expired k' => exact guarded k' _ (PairView.sound_expire _)
  | domain | timeline | counted => exact h

theorem Change.pairSafe (m : Change L R p p') (k : Fin 16) (h : (p.pairView k).Safe) : (p'.pairView k).Safe := by
  cases m with
  | move m => exact m.pairSafe k h
  | plain levels pairs _ _ _ _ _ =>
    obtain ⟨he, hp⟩ := pairs k
    exact h.congr (PairView.isActive_congr he hp) (get_pairView_level levels k)
  | pair k' new safe _ =>
    have hpair : ((p.modPair k' fun _ => new).pairView k).pair = if k = k' then new else p.pair k := pair_modPair ..
    by_cases hk : k = k'
    · rw [if_pos hk] at hpair
      rw [PairView.Safe, hpair, hk]
      exact safe
    · rw [if_neg hk] at hpair
      exact h.congr (fun l => congrArg (·.isActive l) hpair) fun _ => rfl
  | members | place => exact h

theorem Changes.pairsSafe (m : Changes L R p p') (h : p.pairsSafe = true) : p'.pairsSafe = true := by
  rw [pairsSafe_iff] at h ⊢
  exact fun k => m.keep (P := fun p => (p.pairView k).Safe) (fun _ _ m h => m.pairSafe k h) (h k)

theorem pairsSafe_hardReset (p : Part) : p.hardReset.pairsSafe = true :=
  pairsSafe_iff.2 fun k => PairView.safe_disabled (congrArg Pair.enabled (reset_pair k))

end Part

/-- Settles O55: every change keeps the law of the guard, and a hard reset leaves no pair enabled. -/
theorem pairsAreNeverBothActive : Obligations.PairsAreNeverBothActive := by
  intro s s' hs h
  rcases step_part h with e | e | e | e | ⟨i, p, hp, e⟩ <;> rw [e]
  · exact (Part.changes_backupPeriod (L := True) (R := True) s.part).pairsSafe hs
  · exact Part.pairsSafe_hardReset s.part
  · exact hs
  · exact hs
  · exact Part.Changes.pairsSafe ((effect_changes hp).trans (Part.changes_settle p)) hs

end Sys2Proof.Machine
end

section
/-!
A batch for a disabled pair (R33).
-/

namespace Sys2Proof.Machine.PairView

/-- What a part leaves of its channel at a disabled pair: with a request, its level and no waiting request (R33). -/
def withRequest (c : Channel) : Option Request → Channel
  | none => c
  | some q => { c with level := q.level, waiting := none }

theorem answer_applyDisabled (v : PairView) (side : Side) (r : Option Request) :
    (v.applyDisabled side r).2.1 = r.map fun _ => .applied := by
  cases r <;> rfl

theorem get_applyDisabled_self (v : PairView) (side : Side) (r : Option Request) :
    (v.applyDisabled side r).1.get side = withRequest (v.get side) r := by
  cases r with
  | none => rfl
  | some q => cases side <;> rfl

theorem get_applyDisabled_other (v : PairView) (side : Side) (r : Option Request) :
    (v.applyDisabled side r).1.get side.other = v.get side.other := by
  cases r with
  | none => rfl
  | some q => cases side <;> rfl

theorem batch_disabled {v : PairView} (h : v.pair.enabled = false) (t : Nat) (lo up : Option Request) :
    let first := v.applyDisabled .lower lo
    let second := first.1.applyDisabled .upper up
    v.batch t lo up =
      { view := second.1, lower := first.2.1, upper := second.2.1, reports := first.2.2 ++ second.2.2 } := by
  rw [batch, if_neg (by simp [h])]

end Sys2Proof.Machine.PairView

namespace Sys2Proof.Machine

/-- Settles O33: the guard applies the lower part and then the upper one, and neither touches the other's channel. -/
theorem disabledPairAppliesAtOnce : Obligations.DisabledPairAppliesAtOnce := by
  intro v t lower upper h
  simp only [PairView.batch_disabled h, PairView.answer_applyDisabled, true_and]
  have hlower : ((v.applyDisabled .lower lower).1.applyDisabled .upper upper).1.lower = PairView.withRequest v.lower lower :=
    (PairView.get_applyDisabled_other _ .upper upper).trans (PairView.get_applyDisabled_self v .lower lower)
  have hupper : ((v.applyDisabled .lower lower).1.applyDisabled .upper upper).1.upper = PairView.withRequest v.upper upper :=
    (PairView.get_applyDisabled_self _ .upper upper).trans
      (congrArg (PairView.withRequest · upper) (PairView.get_applyDisabled_other v .lower lower))
  refine ⟨hlower.trans ?_, hupper.trans ?_, (PairView.applyDisabled_pair ..).trans (PairView.applyDisabled_pair ..)⟩
  · cases lower <;> rfl
  · cases upper <;> rfl

end Sys2Proof.Machine
end

section
/-!
A batch with a scheduled part for each channel of an enabled pair, neither of which waits (R34 to R37): each part is settled, by a
level that is kept or inactive, or it goes active and is judged.
-/

namespace Sys2Proof.Machine

namespace PairView

variable {v : PairView}

/-- The request of a scheduled part (R30). -/
abbrev stepTo (l : Level) : Request := { level := l, kind := .step }

/-- No channel of the pair waits. -/
def NoneWaits (v : PairView) : Prop := ∀ side, (v.get side).waiting = none

/-- The view after a part that keeps the present level or asks for an inactive one (R34, R35). -/
def settledTo (v : PairView) (t : Nat) (side : Side) (l : Level) : PairView :=
  { v.apply side l with
    pair := if (v.get side).level = v.pair.polarity.activeLevel ∧ l ≠ v.pair.polarity.activeLevel
      then { v.pair with deadTimeEnd := satAdd t v.pair.deadTime } else v.pair }

theorem settledTo_polarity (v : PairView) (t : Nat) (side : Side) (l : Level) :
    (v.settledTo t side l).pair.polarity = v.pair.polarity := by
  unfold settledTo
  split <;> rfl

theorem settledTo_enabled (v : PairView) (t : Nat) (side : Side) (l : Level) :
    (v.settledTo t side l).pair.enabled = v.pair.enabled := by
  unfold settledTo
  split <;> rfl

theorem get_settledTo (v : PairView) (t : Nat) (side side' : Side) (l : Level) :
    (v.settledTo t side l).get side' = if side' = side then { v.get side with level := l } else v.get side' :=
  (get_withPair ..).trans (get_apply ..)

theorem NoneWaits.settledTo (h : v.NoneWaits) (t : Nat) (side : Side) (l : Level) : (v.settledTo t side l).NoneWaits := by
  intro side'
  rw [get_settledTo]
  split
  · exact h side
  · exact h side'

theorem NoneWaits.superseded (h : v.NoneWaits) (lo up : Option Request) : v.superseded lo up = v := by
  have hs (side : Side) (r : Option Request) : v.supersede side r = v := by
    have hc : { v.get side with waiting := none } = v.get side := by rw [← h side]
    unfold supersede wait
    rw [hc]
    cases side <;> exact ite_self _
  rw [PairView.superseded, hs, hs]

/-- R34, R35: a scheduled part that keeps the level or asks for an inactive one is applied, and makes no report. -/
theorem settlePart_settled (he : v.pair.enabled = true) (hw : v.NoneWaits) (t : Nat) {side : Side} {l : Level}
    (hl : l = v.pair.polarity.activeLevel → (v.get side).level = v.pair.polarity.activeLevel) :
    v.settlePart t side (some (stepTo l)) = (v.settledTo t side l, some .applied, []) := by
  unfold settlePart
  dsimp only
  rcases classify_cases v.pair (v.get side).level l with ⟨hc, hkeep⟩ | ⟨hc, hne, hinactive⟩ | ⟨hc, hne, hactive⟩
  · have happly : v.apply side l = v := by rw [hkeep]; cases side <;> rfl
    rw [hc, settledTo, happly, if_neg fun h => h.2 (hkeep.trans h.1)]
    rfl
  · have hla : l ≠ v.pair.polarity.activeLevel := fun e => Bool.false_ne_true (hinactive.symm.trans ((isActive_iff he l).2 e))
    have hother : ((v.apply side l).get side.other).waiting = none := by
      rw [get_apply, if_neg (other_ne side)]
      exact hw _
    rw [hc, settledTo, goInactive]
    simp only [isActive_iff he, hla, ne_eq, not_false_eq_true, and_true]
    split
    · split
      · rw [applyWaiting_none (by rw [get_withPair]; exact hother)]
        rfl
      · rfl
    · rw [← apply_pair v side l]
      rfl
  · have hla := (isActive_iff he l).1 hactive
    exact absurd (hla.trans (hl hla).symm) hne

/-- R34: a scheduled part that goes active is left to be judged. -/
theorem settlePart_going (he : v.pair.enabled = true) (t : Nat) {side : Side} {l : Level}
    (hl : l = v.pair.polarity.activeLevel) (hne : (v.get side).level ≠ v.pair.polarity.activeLevel) :
    v.settlePart t side (some (stepTo l)) = (v, none, []) := by
  refine settlePart_activeGoing ?_
  rw [classify, if_neg fun h => hne (h.symm.trans hl), if_pos ((isActive_iff he l).2 hl)]

/-- The answer to the part of one side. -/
def answer (r : GuardResult) : Side → Option Answer
  | .lower => r.lower
  | .upper => r.upper

/-- The batch with a scheduled part for each channel. -/
def stepBatch (v : PairView) (t : Nat) (level : Side → Level) : GuardResult :=
  v.batch t (some (stepTo (level .lower))) (some (stepTo (level .upper)))

theorem stepBatch_eq (he : v.pair.enabled = true) (hw : v.NoneWaits) (t : Nat) (level : Side → Level) :
    v.stepBatch t level =
      let lo := v.settlePart t .lower (some (stepTo (level .lower)))
      let up := lo.1.settlePart t .upper (some (stepTo (level .upper)))
      if bothActiveGoing (some (stepTo (level .lower))) (some (stepTo (level .upper))) lo.2.1 up.2.1 then
        { view := up.1, lower := some .blocked, upper := some .blocked, reports := lo.2.2 ++ up.2.2 }
      else
        let lo' := up.1.judgePart t .lower (some (stepTo (level .lower))) lo.2.1
        let up' := lo'.1.judgePart t .upper (some (stepTo (level .upper))) up.2.1
        { view := up'.1, lower := lo'.2.1, upper := up'.2.1, reports := lo.2.2 ++ up.2.2 ++ lo'.2.2 ++ up'.2.2 } := by
  have h0 := hw.superseded (some (stepTo (level .lower))) (some (stepTo (level .upper)))
  unfold stepBatch batch guardEnabled
  rw [if_pos he]
  rw [PairView.superseded] at h0
  rw [h0]

/-- Whether the part of a side goes active (R34). -/
def Going (v : PairView) (level : Side → Level) (side : Side) : Prop :=
  level side = v.pair.polarity.activeLevel ∧ (v.get side).level ≠ v.pair.polarity.activeLevel

/-- Whether the part of a side keeps the level, or asks for an inactive one (R34). -/
def Settles (v : PairView) (level : Side → Level) (side : Side) : Prop :=
  level side = v.pair.polarity.activeLevel → (v.get side).level = v.pair.polarity.activeLevel

/-- R36, condition 1: two parts going active are both BLOCKED, and nothing changes. -/
theorem stepBatch_both_going (he : v.pair.enabled = true) (hw : v.NoneWaits) (t : Nat) {level : Side → Level}
    (h : ∀ side, v.Going level side) :
    (v.stepBatch t level).lower = some .blocked ∧ (v.stepBatch t level).upper = some .blocked ∧
      (v.stepBatch t level).view = v := by
  have hs (side : Side) := settlePart_going he t (h side).1 (h side).2
  rw [stepBatch_eq he hw]
  simp [hs, bothActiveGoing]

/-- One part goes active and is judged after the other has been settled. -/
theorem stepBatch_one_going (he : v.pair.enabled = true) (hw : v.NoneWaits) (t : Nat) {level : Side → Level} {own : Side}
    (hown : v.Going level own) (hother : v.Settles level own.other) :
    let judged := (v.settledTo t own.other (level own.other)).judge t own (stepTo (level own))
    (v.stepBatch t level).view = judged.1 ∧ answer (v.stepBatch t level) own = some judged.2.1 ∧
      answer (v.stepBatch t level) own.other = some .applied := by
  rw [stepBatch_eq he hw]
  cases own with
  | lower =>
    have hup : v.settlePart t .upper (some (stepTo (level .upper))) = (v.settledTo t .upper (level .upper), some .applied, []) :=
      settlePart_settled he hw t hother
    simp [settlePart_going he t hown.1 hown.2, hup, bothActiveGoing, judgePart, answer, Side.other]
  | upper =>
    have hlo : v.settlePart t .lower (some (stepTo (level .lower))) = (v.settledTo t .lower (level .lower), some .applied, []) :=
      settlePart_settled he hw t hother
    have hup := settlePart_going (v := v.settledTo t .lower (level .lower)) (side := .upper) (l := level .upper) (by rw [settledTo_enabled]; exact he) t (by rw [settledTo_polarity]; exact hown.1)
        (by rw [settledTo_polarity, get_settledTo, if_neg (by simp)]; exact hown.2)
    simp [hlo, hup, bothActiveGoing, judgePart, answer, Side.other]

/-- R36: one part goes active beside a settled one: BLOCKED by an active partner, deferred while dead time runs, else applied. -/
theorem stepBatch_one_going_cases (he : v.pair.enabled = true) (hw : v.NoneWaits) (t : Nat) {level : Side → Level}
    {own : Side} (hown : v.Going level own) (hother : v.Settles level own.other) :
    let r := v.stepBatch t level
    let first := v.settledTo t own.other (level own.other)
    answer r own.other = some .applied ∧
      (level own.other = v.pair.polarity.activeLevel → answer r own = some .blocked ∧ r.view = first) ∧
      (level own.other ≠ v.pair.polarity.activeLevel →
        (t < first.pair.deadTimeEnd → answer r own = some (.deferred first.pair.deadTimeEnd) ∧ r.view = first) ∧
        (first.pair.deadTimeEnd ≤ t → answer r own = some .applied ∧ r.view = first.apply own (level own))) := by
  intro r first
  obtain ⟨hview, hanswer, hsettled⟩ := stepBatch_one_going he hw t hown hother
  obtain ⟨hblocked, hdeferred, happlied⟩ :=
    judge_step (v := first) (by rw [settledTo_enabled]; exact he) t own (level own)
  have hblocks : first.Blocks t own ↔ level own.other = v.pair.polarity.activeLevel := by
    have hwait : (first.get own.other).waiting = none := hw.settledTo t _ _ _
    rw [Blocks, hwait, get_settledTo, if_pos rfl, settledTo_polarity]
    simp
  rw [hblocks] at hblocked hdeferred happlied
  refine ⟨hsettled, fun ha => ?_, fun ha => ⟨fun ht => ?_, fun ht => ?_⟩⟩
  · have hj := hblocked ha
    exact ⟨hanswer.trans (congrArg (fun j => some j.2.1) hj), hview.trans (congrArg Prod.fst hj)⟩
  · have hj := hdeferred ha ht
    exact ⟨hanswer.trans (congrArg (fun j => some j.2.1) hj), hview.trans (congrArg Prod.fst hj)⟩
  · have hj := happlied ha ht
    exact ⟨hanswer.trans (congrArg (fun j => some j.2.1) hj), hview.trans (congrArg Prod.fst hj)⟩

/-- Two settled parts are both applied. -/
theorem stepBatch_both_settled (he : v.pair.enabled = true) (hw : v.NoneWaits) (t : Nat) {level : Side → Level}
    (h : ∀ side, v.Settles level side) :
    (v.stepBatch t level).lower = some .applied ∧ (v.stepBatch t level).upper = some .applied ∧
      (v.stepBatch t level).view = (v.settledTo t .lower (level .lower)).settledTo t .upper (level .upper) := by
  have hlo := settlePart_settled he hw t (h .lower)
  have hup : (v.settledTo t .lower (level .lower)).settlePart t .upper (some (stepTo (level .upper))) = _ :=
    settlePart_settled (by rw [settledTo_enabled]; exact he) (hw.settledTo t _ _) t
      (by rw [settledTo_polarity, get_settledTo, if_neg (by simp)]; exact h .upper)
  rw [stepBatch_eq he hw]
  simp [hlo, hup, bothActiveGoing, judgePart]

/-- R35: a channel that leaves the active level moves the dead-time end. -/
theorem settledTo_leaves {t : Nat} {side : Side} {l : Level} (hp : (v.get side).level = v.pair.polarity.activeLevel)
    (hl : l ≠ v.pair.polarity.activeLevel) :
    v.settledTo t side l =
      { v.apply side l with pair := { v.pair with deadTimeEnd := min (t + v.pair.deadTime) (2 ^ 64 - 1) } } := by
  rw [settledTo, if_pos ⟨hp, hl⟩, satAdd_eq_min]

/-- R34, R35: a channel that does not leave the active level keeps the pair record. -/
theorem settledTo_stays {t : Nat} {side : Side} {l : Level}
    (h : ¬((v.get side).level = v.pair.polarity.activeLevel ∧ l ≠ v.pair.polarity.activeLevel)) :
    v.settledTo t side l = v.apply side l := by
  rw [settledTo, if_neg h, ← apply_pair v side l]

theorem apply_present {side : Side} {l : Level} (h : (v.get side).level = l) : v.apply side l = v := by
  subst h
  cases side <;> rfl

/-- R35, R36: one part goes active as the partner leaves the active level: it is deferred to the new dead-time end, or applied
where that end is not after t. -/
theorem stepBatch_partner_leaves (he : v.pair.enabled = true) (hw : v.NoneWaits) (t : Nat) {level : Side → Level} {own : Side}
    (hown : v.Going level own) (hp : (v.get own.other).level = v.pair.polarity.activeLevel)
    (hl : level own.other ≠ v.pair.polarity.activeLevel) :
    let r := v.stepBatch t level
    let newEnd := min (t + v.pair.deadTime) (2 ^ 64 - 1)
    let first : PairView := { v.apply own.other (level own.other) with pair := { v.pair with deadTimeEnd := newEnd } }
    answer r own.other = some .applied ∧
      (t < newEnd → answer r own = some (.deferred newEnd) ∧ r.view = first) ∧
      (newEnd ≤ t → answer r own = some .applied ∧ r.view = first.apply own (level own)) := by
  have h := stepBatch_one_going_cases he hw t hown fun e => absurd e hl
  rw [settledTo_leaves hp hl] at h
  obtain ⟨hsettled, -, hgoing⟩ := h
  exact ⟨hsettled, hgoing hl⟩

/-- R36: one part goes active beside a partner that keeps the active level or stays inactive. -/
theorem stepBatch_partner_stays (he : v.pair.enabled = true) (hw : v.NoneWaits) (t : Nat) {level : Side → Level} {own : Side}
    (hown : v.Going level own)
    (hp : level own.other = v.pair.polarity.activeLevel ↔ (v.get own.other).level = v.pair.polarity.activeLevel) :
    let r := v.stepBatch t level
    let first := v.apply own.other (level own.other)
    answer r own.other = some .applied ∧
      (level own.other = v.pair.polarity.activeLevel → answer r own = some .blocked ∧ r.view = v) ∧
      (level own.other ≠ v.pair.polarity.activeLevel → t < v.pair.deadTimeEnd →
        answer r own = some (.deferred v.pair.deadTimeEnd) ∧ r.view = first) ∧
      (level own.other ≠ v.pair.polarity.activeLevel → v.pair.deadTimeEnd ≤ t →
        answer r own = some .applied ∧ r.view = first.apply own (level own)) := by
  have h := stepBatch_one_going_cases he hw t hown hp.1
  rw [settledTo_stays fun e => e.2 (hp.2 e.1)] at h
  obtain ⟨hsettled, hblocked, hgoing⟩ := h
  rw [apply_pair] at hgoing
  refine ⟨hsettled, fun ha => ?_, fun ha => (hgoing ha).1, fun ha => (hgoing ha).2⟩
  rw [apply_present ((hp.1 ha).trans ha.symm)] at hblocked
  exact hblocked ha

/-- The levels asked for of the two channels. -/
def bySide (lo up : Level) : Side → Level
  | .lower => lo
  | .upper => up

theorem noneWaits_iff : v.NoneWaits ↔ v.lower.waiting = none ∧ v.upper.waiting = none :=
  ⟨fun h => ⟨h .lower, h .upper⟩, fun h side => by cases side; exacts [h.1, h.2]⟩

end PairView

open PairView

/-- Settles O34: the parts that settle are settled, and then the parts that go active are judged. -/
theorem guardTakesBothScheduledParts : Obligations.GuardTakesBothScheduledParts := by
  intro v t lo up he hlw huw hboth active r newEnd ended lower upper
  have hw : v.NoneWaits := noneWaits_iff.2 ⟨hlw, huw⟩
  have hr : r = v.stepBatch t (bySide lo up) := rfl
  rw [hr]
  refine ⟨fun hl hl' hu hu' => ?_, fun hl hl' hu => ?_, fun hu hu' hl => ?_, fun hl hl' hu => ?_, fun hu hu' hl => ?_,
    fun hl hu => ?_⟩
  · exact stepBatch_both_going he hw t fun side => by cases side; exacts [⟨hl, hl'⟩, ⟨hu, hu'⟩]
  · exact stepBatch_partner_leaves (own := .upper) he hw t ⟨hu, fun hu' => hboth ⟨hl', hu'⟩⟩ hl' hl
  · exact stepBatch_partner_leaves (own := .lower) he hw t ⟨hl, fun hl' => hboth ⟨hl', hu'⟩⟩ hu' hu
  · exact stepBatch_partner_stays (own := .lower) he hw t ⟨hl, hl'⟩ hu
  · exact stepBatch_partner_stays (own := .upper) he hw t ⟨hu, hu'⟩ hl
  · obtain ⟨hlower, hupper, hview⟩ :=
      stepBatch_both_settled he hw t (level := bySide lo up) fun side => by cases side; exacts [hl, hu]
    refine ⟨hlower, hupper, hview.trans ?_⟩
    show (v.settledTo t .lower lo).settledTo t .upper up = _
    by_cases hlo : v.lower.level = active ∧ lo ≠ active
    · rw [settledTo_stays, settledTo_leaves (v := v) (side := .lower) hlo.1 hlo.2, if_pos (.inl hlo)]
      · rfl
      · rw [settledTo_polarity]
        exact fun h => hboth ⟨hlo.1, h.1⟩
    · rw [settledTo_stays (v := v) (side := .lower) hlo]
      by_cases hup : v.upper.level = active ∧ up ≠ active
      · rw [settledTo_leaves, if_pos (.inr hup)]
        · rfl
        · exact hup.1
        · exact hup.2
      · rw [settledTo_stays, if_neg fun h => h.elim hlo hup]
        · rfl
        · exact hup

end Sys2Proof.Machine
end

section
/-!
CONFIGURE PAIR (R46, R47), and the queries of a channel and of the time (R48, R123): each is answered from its refusal table.
-/

namespace Sys2Proof.Machine

namespace Part

variable {p : Part} {q : Fin 8}

/-- The channel mask, at a channel that is named by its number. -/
theorem maskAllows_ofNat {n : Nat} (h : n < 32) : p.maskAllows q (Fin.ofNat 32 n) = (p.queue q).mask.getLsbD n := by
  rw [maskAllows, Fin.val_ofNat, Nat.mod_eq_of_lt h]

/-! ### CONFIGURE PAIR -/

/-- The polarity that the command's code field names, a code that is not 1 read as the other one. -/
def pairPolarity (b : PairBody) : Polarity := if b.polarity = 1 then .activeHigh else .activeLow

/-- The refusals of CONFIGURE PAIR, in the order of R46. -/
def pairTable (p : Part) (q : Fin 8) (b : PairBody) : List (Bool × Status × Nat) :=
  let k := Fin.ofNat 16 b.pair.toNat
  let lo := channelOf k .lower
  let up := channelOf k .upper
  let enable := b.enable.getLsbD 0
  let active := (pairPolarity b).activeLevel
  [ (decide (16 ≤ b.pair.toNat), .badField, 1),
    (decide ((b.polarity ≠ 1 ∧ b.polarity ≠ 2) ∨ 1023 < b.deadTime.toNat), .badField, 2),
    (!(p.queue q).mask.getLsbD lo.val, .noAuthority, lo.val),
    (!(p.queue q).mask.getLsbD up.val, .noAuthority, up.val),
    (decide (p.timeline lo ≠ [] ∨ p.timeline up ≠ []), .wrongState, 1),
    ((p.channel lo).force.isSome || (p.channel up).force.isSome, .wrongState, 2),
    ((p.channel lo).waiting.isSome || (p.channel up).waiting.isSome, .wrongState, 3),
    (enable && (p.channel lo).level == active && (p.channel up).level == active, .wrongState, 4),
    (enable && (p.channel lo).safe == active && (p.channel up).safe == active, .badField, 3),
    (enable && decide (p.domainOf lo ≠ p.domainOf up), .badField, 4) ]

theorem isEmpty_not_or (l l' : List Step) : (!l.isEmpty || !l'.isEmpty) = true ↔ l ≠ [] ∨ l' ≠ [] := by
  rw [Bool.or_eq_true, Bool.not_eq_true', Bool.not_eq_true', List.isEmpty_eq_false_iff, List.isEmpty_eq_false_iff]

theorem configurePairRefusal_eq (p : Part) (q : Fin 8) (b : PairBody) :
    p.configurePairRefusal q b = firstRow (p.pairTable q b) := by
  unfold configurePairRefusal pairTable
  dsimp only
  generalize Fin.ofNat 16 b.pair.toNat = k
  rw [firstRow_cons, firstRow_cons]
  simp only [decide_eq_true_eq]
  refine ite_congr rfl (fun _ => rfl) fun _ => ?_
  by_cases hcode : b.polarity = 1 ∨ b.polarity = 2
  · have hpolarity : Polarity.ofCode b.polarity.toNat = some (pairPolarity b) := by
      rcases hcode with h | h <;> rw [pairPolarity, h] <;> rfl
    have hrow : (b.polarity ≠ 1 ∧ b.polarity ≠ 2) ∨ 1023 < b.deadTime.toNat ↔ 1023 < b.deadTime.toNat :=
      or_iff_right (by tauto)
    rw [hpolarity]
    dsimp only
    generalize (pairPolarity b).activeLevel = active
    rw [firstRow_cons, firstRow_cons, firstRow_cons, firstRow_cons, firstRow_cons]
    refine ite_congr (propext hrow.symm) (fun _ => rfl) fun _ => ite_congr rfl (fun _ => rfl) fun _ =>
      ite_congr rfl (fun _ => rfl) fun _ => ite_congr ?_ (fun _ => rfl) fun _ => ite_congr rfl (fun _ => rfl) fun _ =>
      ite_congr rfl (fun _ => rfl) fun _ => ?_
    · rw [isEmpty_not_or, decide_eq_true_eq]
    · cases b.enable.getLsbD 0 with
      | false => rfl
      | true =>
        rw [firstRow_cons, firstRow_cons, firstRow_cons]
        refine (if_neg (by simp)).trans ?_
        refine ite_congr rfl (fun _ => rfl) fun _ => ite_congr rfl (fun _ => rfl) fun _ => ite_congr ?_ (fun _ => rfl) fun _ => rfl
        rw [Bool.true_and, decide_eq_true_eq]
  · have hrow : (b.polarity ≠ 1 ∧ b.polarity ≠ 2) ∨ 1023 < b.deadTime.toNat := .inl (not_or.1 hcode)
    have hnone : Polarity.ofCode b.polarity.toNat = none := by
      rw [← Option.not_isSome_iff_eq_none, Polarity.ofCode_isSome]
      exact hcode
    rw [hnone, if_pos hrow]

/-- A CONFIGURE PAIR that is not refused names its polarity by code 1 or 2. -/
theorem polarity_of_pairTable (h : firstRow (p.pairTable q b) = none) : b.polarity = 1 ∨ b.polarity = 2 := by
  by_contra hcode
  unfold pairTable at h
  dsimp only at h
  rw [firstRow_cons, firstRow_cons, if_pos (c := decide (_ ∨ _) = true) (decide_eq_true (.inl (not_or.1 hcode)))] at h
  split at h <;> cases h

/-- The dead-time end that an accepted CONFIGURE PAIR leaves (R47). -/
def commandedEnd (p : Part) (k : Fin 16) (b : PairBody) : Nat :=
  let leaves (c : Fin 32) : Bool :=
    (p.pair k).enabled && (p.channel c).level == (p.pair k).polarity.activeLevel &&
      !(b.enable.getLsbD 0 && (p.channel c).level == (pairPolarity b).activeLevel)
  if leaves (channelOf k .lower) || leaves (channelOf k .upper) then min (p.clock.time + b.deadTime.toNat) maxTime
  else p.clock.time

/-- The record that an accepted CONFIGURE PAIR leaves (R47). -/
def commandedPair (p : Part) (k : Fin 16) (b : PairBody) : Pair :=
  { enabled := b.enable.getLsbD 0, polarity := pairPolarity b, deadTime := b.deadTime.toNat,
    deadTimeEnd := p.commandedEnd k b }

theorem configuredPair_eq (h : b.polarity = 1 ∨ b.polarity = 2) (k : Fin 16) :
    p.configuredPair k b = p.commandedPair k b := by
  have hpolarity : (Polarity.ofCode b.polarity.toNat).getD .activeHigh = pairPolarity b := Polarity.ofCode_getD h
  unfold configuredPair commandedPair commandedEnd
  dsimp only
  rw [hpolarity, satAdd_eq_min]
  split
  · rename_i hl
    exact congrArg (Pair.mk _ _ _) (if_pos hl).symm
  · rename_i hl
    exact congrArg (Pair.mk _ _ _) (if_neg hl).symm

/-- R46, R47. -/
theorem configurePair_eq (p : Part) (q : Fin 8) (hd : Header) (b : PairBody) :
    let k := Fin.ofNat 16 b.pair.toNat
    p.configurePair q hd b = p.answered q hd (p.pairTable q b)
      ((p.modPair k fun _ => p.commandedPair k b).completeWith q hd 0 (p.commandedEnd k b)) := by
  intro k
  rw [configurePair, answered_eq, configurePairRefusal_eq]
  cases hf : firstRow (p.pairTable q b) with
  | some x => rfl
  | none =>
    dsimp only
    rw [configuredPair_eq (polarity_of_pairTable hf)]
    rfl

/-! ### QUERY CHANNEL -/

/-- R48. -/
theorem queryChannel_eq (p : Part) (q : Fin 8) (hd : Header) (channel : BitVec 8) :
    let c := Fin.ofNat 32 channel.toNat
    p.queryChannel q hd channel =
      p.answered q hd
        [ (decide (32 ≤ channel.toNat), .badField, 1),
          (!(p.queue q).mask.getLsbD channel.toNat, .noAuthority, channel.toNat) ]
        (({ p with freeIndex := p.freeIndex + 1 } : Part).completeWith q hd
          (channelAux (p.channel c) (p.pair (pairOf c)) (p.timeline c).length (p.reasonBit c)) (p.headValue c)) := by
  intro c
  rw [answered_decide, answered_cons, answered_nil]
  refine ite_congr rfl (fun _ => rfl) fun hrange => ?_
  have hc : channel.toNat < 32 := not_le.1 hrange
  have hval : c.val = channel.toNat := (Fin.val_ofNat ..).trans (Nat.mod_eq_of_lt hc)
  have hmask : p.maskAllows q c = (p.queue q).mask.getLsbD channel.toNat := maskAllows_ofNat hc
  exact ite_congr (congrArg (fun x => (!x) = true) hmask) (fun _ => congrArg _ hval) fun _ => rfl

end Part

theorem two_pow_mul_bit (x : Bool) (n : Nat) : 2 ^ n * bit x = if x then 2 ^ n else 0 := by
  cases x <;> simp [bit]

/-- R123: the fields of READ TIME's aux. -/
theorem Clock.aux_eq (c : Clock) : c.aux = (if c.source = .backup then 1 else 0) + (if c.primaryPresent then 2 else 0) +
    4 * c.supervisor.state.code + 16 * c.supervisor.bad + 256 * verdictCode c.supervisor.verdict := by
  unfold aux bit
  cases c.source <;> cases c.primaryPresent <;> rfl

/-- Settles O37, by the table; a change of a pair record meets no posting fault. -/
theorem configurePairSetsTheRecord : Obligations.ConfigurePairSetsTheRecord := by
  intro h b s q hr ha
  have hauth := (congrArg (fun a => a.getLsbD 0) (Part.authority_taken s.part q)).trans ha
  have hc : Part.Calm _ (s.part.taken q) := Part.ready_calm hr
  refine answered_takes (cmd := .configurePair b) rfl hr
    ((Part.process_authorised (cls := 0) rfl hauth h).trans (Part.configurePair_eq ..)) ?_ (Part.completeWith_engine ..)
  exact Part.Calm.completesWith (p := s.part.taken q) (p' := (s.part.taken q).modPair _ _) (hc.congr rfl rfl rfl rfl) rfl
    (Part.ready_owes hr) ..

/-- Settles O38: the free bit is that of the counter, and the packed values are those of the records. -/
theorem queriesReport : Obligations.QueriesReport := by
  refine ⟨fun h channel s q hr => ?_, fun h s q hr => ?_⟩
  · intro T c ch pair bits
    have hc : Part.Calm _ T := Part.ready_calm hr
    refine ⟨T.reasonBit c, fun r hforce => ?_, ?_⟩
    · rw [Part.reasonBit, show (T.channel c).force = some r from hforce]
      exact beq_iff_eq
    · have ht := answered_takes (i := .queryChannel h channel) (cmd := .queryChannel channel) rfl hr
        (Part.queryChannel_eq ..)
        (Part.Calm.completesWith (p' := { T with freeIndex := T.freeIndex + 1 }) (hc.congr rfl rfl rfl rfl) rfl
          (Part.ready_owes hr) ..)
        (Part.completeWith_engine ..)
      have haux : channelAux ch pair (T.timeline c).length (T.reasonBit c) = ch.level.code + 4 * ch.safe.code + bits ch.force.isSome 4 +
          bits (T.reasonBit c) 5 + bits ch.waiting.isSome 6 + bits pair.enabled 7 + bits (pair.polarity == .activeLow) 8 +
          1024 * (T.timeline c).length := by
        simp only [channelAux, two_pow_mul_bit]
        rfl
      rw [haux] at ht
      unfold Part.headValue at ht
      exact ht
  · intro T sup
    have ht : takes (.readTime h) s (T.completeWith q h T.clock.aux T.clock.time) :=
      ready_takes (i := .readTime h) (cmd := .readTime) rfl hr rfl
        ((Part.ready_calm hr).completeWith (Part.ready_owes hr) ..).fault
        ((congrArg Engine.state (Part.completeWith_engine ..)).trans (Part.ready_running hr))
    rw [Clock.aux_eq] at ht
    unfold verdictCode at ht
    exact ht

end Sys2Proof.Machine
end

section
/-!
A batch of one non-scheduled part (R34 to R38), and the request for one channel that makes it.
-/

namespace Sys2Proof.Machine

namespace PairView

variable {v : PairView}

/-- The batch of one request, for the channel of one side. -/
def soloBatch (v : PairView) (t : Nat) (own : Side) (r : Request) : GuardResult :=
  v.batch t (soloPart own r .lower) (soloPart own r .upper)

theorem soloBatch_disabled (h : v.pair.enabled = false) (t : Nat) (own : Side) (r : Request) :
    (v.soloBatch t own r).view = v.set own { v.get own with level := r.level, waiting := none } := by
  rw [soloBatch, batch_disabled h]
  cases own <;> rfl

/-- The guard's two halves, for one non-scheduled part of an enabled pair. -/
theorem soloBatch_enabled (h : v.pair.enabled = true) (t : Nat) (own : Side) (l : Level) (kind : WaitKind) :
    let r : Request := { level := l, kind := .nonScheduled kind }
    let settled := (v.wait own none).settlePart t own (some r)
    (v.soloBatch t own r).view = (settled.1.judgePart t own (some r) settled.2.1).1 := by
  intro r settled
  have hnone (a a' : Option Answer) : bothActiveGoing (soloPart own r .lower) (soloPart own r .upper) a a' = false :=
    bothActiveGoing_nonScheduled (r := r) rfl (by cases own; exacts [.inl rfl, .inr rfl]) a a'
  rw [soloBatch, batch, if_pos h, guardEnabled_view _ _ _ _ hnone]
  cases own <;> rfl

/-- R36, R38: a part that asks for the active level while dead time runs becomes the channel's waiting request. -/
theorem soloBatch_waits (he : v.pair.enabled = true) {t : Nat} {own : Side} {l : Level} (kind : WaitKind)
    (hl : l = v.pair.polarity.activeLevel) (hne : (v.get own).level ≠ l) (ht : t < v.pair.deadTimeEnd) :
    (v.soloBatch t own { level := l, kind := .nonScheduled kind }).view =
      v.set own { v.get own with waiting := some { level := l, kind := kind } } := by
  have hgoing : classify (v.wait own none).pair ((v.wait own none).get own).level l = .activeGoing := by
    have hpair : (v.wait own none).pair = v.pair := set_pair ..
    rw [classify, get_wait_level, if_neg (Ne.symm hne), hpair, if_pos ((isActive_iff he l).2 hl)]
  rw [soloBatch_enabled he, settlePart_activeGoing hgoing]
  cases own <;> simp [judgePart, judge, wait, PairView.set, PairView.get, ht]

/-- R34 to R37: beside an inactive partner, a part that does not wait has its channel at the level asked for. -/
theorem get_soloBatch_applied {t : Nat} {own : Side} {l : Level} (kind : WaitKind)
    (hpartner : v.pair.isActive (v.get own.other).level = false ∨ v.pair.isActive l = false)
    (h : ¬(v.pair.enabled = true ∧ l = v.pair.polarity.activeLevel ∧ (v.get own).level ≠ l ∧ t < v.pair.deadTimeEnd)) :
    (v.soloBatch t own { level := l, kind := .nonScheduled kind }).view.get own =
      { v.get own with level := l, waiting := none } := by
  by_cases he : v.pair.enabled = true
  · have hown : (v.wait own none).get own = { v.get own with waiting := none } := by rw [get_wait, if_pos rfl]
    have hpair : (v.wait own none).pair = v.pair := set_pair ..
    rw [soloBatch_enabled he]
    unfold settlePart
    dsimp only
    rcases classify_cases (v.wait own none).pair ((v.wait own none).get own).level l with
      ⟨hc, hl⟩ | ⟨hc, -, -⟩ | ⟨hc, hne, ha⟩
    · rw [get_wait_level] at hl
      rw [hc]
      refine hown.trans ?_
      rw [hl]
    · rw [hc]
      refine (get_goInactive_self ..).trans ?_
      rw [hown]
    · rw [hc]
      rw [hpair] at ha
      rw [get_wait_level] at hne
      have hdead : ¬t < v.pair.deadTimeEnd := fun ht => h ⟨he, (isActive_iff he l).1 ha, Ne.symm hne, ht⟩
      have hinactive : v.pair.isActive ((v.wait own none).get own.other).level = false := by
        rw [get_wait_level]
        exact hpartner.resolve_right (by simp [ha])
      simp only [judgePart, judge, hinactive, hpair, decide_eq_false hdead, Bool.or_false, Bool.false_eq_true, if_false]
      rw [get_apply, if_pos rfl, hown]
  · rw [soloBatch_disabled (Bool.eq_false_of_not_eq_true he), get_set, if_pos rfl]

end PairView

namespace Part

variable {p : Part}

theorem requestOne_eq (p : Part) (c : Fin 32) (r : Request) :
    p.requestOne c r = p.requestBatch (pairOf c) (soloPart (sideOf c) r .lower) (soloPart (sideOf c) r .upper) := by
  unfold requestOne
  cases sideOf c <;> rfl

/-- A request for one channel changes its pair, as the guard says. -/
theorem pairView_requestOne (p : Part) (c : Fin 32) (r : Request) (k : Fin 16) : (p.requestOne c r).pairView k =
    if k = pairOf c then ((p.pairView (pairOf c)).soloBatch p.now (sideOf c) r).view else p.pairView k := by
  rw [requestOne_eq, pairView_requestBatch]
  rfl

theorem channel_of_pairView (p : Part) (c : Fin 32) : p.channel c = (p.pairView (pairOf c)).get (sideOf c) := by
  rw [get_pairView, channelOf_pairOf]

end Part

end Sys2Proof.Machine
end

section
/-!
CONFIGURE CHANNEL (R44, R45): the refusal table, and the safe and idle levels that an accepted command sets.
-/

namespace Sys2Proof.Machine

theorem Side.eq_other {side own : Side} (h : side ≠ own) : side = own.other := by
  cases side <;> cases own <;> simp_all [Side.other]

theorem eq_or_eq_partnerOf {c c' : Fin 32} (h : pairOf c' = pairOf c) : c' = c ∨ c' = partnerOf c := by
  by_cases hs : sideOf c' = sideOf c
  · exact .inl ((eq_iff_pair_side c c').2 ⟨h, hs⟩)
  · right
    rw [← channelOf_pairOf c', h, Side.eq_other hs]
    rfl

theorem Level.ofCode_eq_none (n : Nat) : Level.ofCode n = none ↔ n < 1 ∨ 3 < n := by
  rcases n with _ | _ | _ | _ | n <;> simp [Level.ofCode]

theorem IdleLevel.ofCode_eq_none (n : Nat) : IdleLevel.ofCode n = none ↔ n < 1 ∨ 4 < n := by
  rcases n with _ | _ | _ | _ | _ | n <;> simp [IdleLevel.ofCode]

/-- The code of a level is the code of that idle level (R44). -/
theorem IdleLevel.ofCode_level {n : Nat} {l : Level} (h : Level.ofCode n = some l) : IdleLevel.ofCode n = some (.level l) := by
  unfold Level.ofCode at h
  split at h <;> cases h <;> rfl

theorem Pair.isActive_iff (k : Pair) (l : Level) : k.isActive l = true ↔ k.enabled = true ∧ l = k.polarity.activeLevel := by
  simp [Pair.isActive]

theorem PairView.waitingActive_iff_waiting (v : PairView) (side : Side) : v.waitingActive side = true ↔
    v.pair.enabled = true ∧ (v.get side).waiting.map Waiting.level = some v.pair.polarity.activeLevel := by
  unfold PairView.waitingActive
  cases (v.get side).waiting with
  | none => simp
  | some w => simp [Pair.isActive_iff]

namespace Part

variable {p : Part} {q : Fin 8} {c : Fin 32}

/-! ### The refusal table -/

theorem bothActive_iff (k : Pair) (l l' : Level) : (k.isActive l && k.isActive l') = true ↔
    k.enabled = true ∧ l = k.polarity.activeLevel ∧ l' = k.polarity.activeLevel := by
  rw [Bool.and_eq_true, Pair.isActive_iff, Pair.isActive_iff]
  tauto

/-- R44, the last row: the active level is asked for beside a partner that is active or waits for the active level. -/
theorem idleRefused_iff (p : Part) (c : Fin 32) (l : Level) :
    ((p.pair (pairOf c)).isActive l && ((p.pair (pairOf c)).isActive (p.channel (partnerOf c)).level ||
      (p.pairView (pairOf c)).waitingActive (sideOf c).other)) = true ↔
    (p.pair (pairOf c)).enabled = true ∧ l = (p.pair (pairOf c)).polarity.activeLevel ∧
      ((p.channel (partnerOf c)).level = (p.pair (pairOf c)).polarity.activeLevel ∨
        (p.channel (partnerOf c)).waiting.map Waiting.level = some (p.pair (pairOf c)).polarity.activeLevel) := by
  have hpair : (p.pairView (pairOf c)).pair = p.pair (pairOf c) := rfl
  have hpartner : channelOf (pairOf c) (sideOf c).other = partnerOf c := rfl
  rw [Bool.and_eq_true, Bool.or_eq_true, Pair.isActive_iff, Pair.isActive_iff, PairView.waitingActive_iff_waiting, hpair,
    get_pairView, hpartner]
  tauto

/-- R44: what the last two rows of the table look at, for a safe and an idle level that the codes name. -/
theorem configureChannelRefusal_eq (p : Part) (q : Fin 8) (b : ChannelBody) :
    p.configureChannelRefusal q b = firstRow (p.channelTable q b) := by
  unfold configureChannelRefusal channelTable
  dsimp only
  rw [firstRow_cons, firstRow_cons]
  simp only [decide_eq_true_eq]
  refine ite_congr rfl (fun _ => rfl) fun hrange => ?_
  have hmask : p.maskAllows q (Fin.ofNat 32 b.channel.toNat) = (p.queue q).mask.getLsbD b.channel.toNat :=
    maskAllows_ofNat (not_le.1 hrange)
  have hval : (Fin.ofNat 32 b.channel.toNat).val = b.channel.toNat := Nat.mod_eq_of_lt (not_le.1 hrange)
  rw [hmask, hval]
  generalize Fin.ofNat 32 b.channel.toNat = c
  cases hsafe : Level.ofCode b.safeLevel.toNat with
  | none =>
    have hrow := (Level.ofCode_eq_none _).1 hsafe
    exact (if_pos (by omega)).symm
  | some safe =>
    cases hidle : IdleLevel.ofCode b.idleLevel.toNat with
    | none =>
      have hrow := (IdleLevel.ofCode_eq_none _).1 hidle
      exact (if_pos (by omega)).symm
    | some idle =>
      have hs : ¬(b.safeLevel.toNat < 1 ∨ 3 < b.safeLevel.toNat) := fun h => by
        cases hsafe.symm.trans ((Level.ofCode_eq_none _).2 h)
      have hi : ¬(b.idleLevel.toNat < 1 ∨ 4 < b.idleLevel.toNat) := fun h => by
        cases hidle.symm.trans ((IdleLevel.ofCode_eq_none _).2 h)
      rw [if_neg (c := b.safeLevel.toNat < 1 ∨ _) (by omega), firstRow_cons, firstRow_cons, firstRow_cons, firstRow_cons,
        firstRow_cons]
      refine ite_congr rfl (fun _ => rfl) fun _ => ite_congr rfl (fun _ => rfl) fun _ => ite_congr ?_ (fun _ => rfl) fun _ =>
        ite_congr ?_ (fun _ => rfl) fun _ => ?_
      · rw [Bool.not_eq_true', List.isEmpty_eq_false_iff, decide_eq_true_eq]
      · rw [bothActive_iff, decide_eq_true_eq, Option.some.injEq]
      · cases idle with
        | keep => simp [firstRow]
        | level l =>
          refine ite_congr ?_ (fun _ => rfl) fun _ => rfl
          rw [idleRefused_iff, decide_eq_true_eq, Option.some.injEq, IdleLevel.level.injEq]

/-! ### The accepted command -/

/-- The part after an accepted CONFIGURE CHANNEL has set the safe level and requested the idle level (R45). -/
def levelsSet (p : Part) (c : Fin 32) (safe : Level) (idle : IdleLevel) : Part :=
  (p.modChannel c fun ch => { ch with safe := safe }).requestIdle c idle

/-- R44, R45. -/
theorem configureChannel_eq (p : Part) (q : Fin 8) (hd : Header) (b : ChannelBody) :
    let c := Fin.ofNat 32 b.channel.toNat
    let idle := (IdleLevel.ofCode b.idleLevel.toNat).getD .keep
    let set := p.levelsSet c ((Level.ofCode b.safeLevel.toNat).getD .float) idle
    p.configureChannel q hd b = p.answered q hd (p.channelTable q b) (set.completeWith q hd 0 (set.idleTime c idle)) := by
  intro c idle set
  rw [configureChannel, answered_eq, configureChannelRefusal_eq]
  cases firstRow (p.channelTable q b) <;> rfl

/-- R44: an accepted command that asks for the active level of an enabled pair finds the partner inactive. -/
theorem partner_inactive_of_channelTable {b : ChannelBody} {idle : Level} (h : firstRow (p.channelTable q b) = none)
    (hidle : Level.ofCode b.idleLevel.toNat = some idle) :
    let c := Fin.ofNat 32 b.channel.toNat
    (p.pair (pairOf c)).isActive (p.channel (partnerOf c)).level = false ∨ (p.pair (pairOf c)).isActive idle = false := by
  intro c
  by_contra hc
  rw [not_or, Bool.not_eq_false, Bool.not_eq_false, Pair.isActive_iff, Pair.isActive_iff] at hc
  obtain ⟨⟨he, hpartner⟩, -, hactive⟩ := hc
  have hrow := List.find?_eq_none.1 (Option.map_eq_none_iff.1 h) _ (List.mem_of_getElem? (i := 6) rfl)
  exact hrow (decide_eq_true ⟨he, by rw [IdleLevel.ofCode_level hidle, hactive], .inl hpartner⟩)

/-! ### The levels -/

section

variable (p : Part) (c : Fin 32) (safe : Level)

/-- The pair of c with the new safe level. -/
theorem pairView_safeSet (side : Side) :
    ((p.modChannel c fun ch => { ch with safe := safe }).pairView (pairOf c)).get side =
      if side = sideOf c then { p.channel c with safe := safe } else p.channel (channelOf (pairOf c) side) := by
  rw [get_pairView, channel_modChannel, if_congr (eq_iff_pair_side ..) rfl rfl]
  simp only [pairOf_channelOf, sideOf_channelOf, true_and]

/-- R45: the guard's answer to the idle level of an accepted command. -/
def idleAnswer (idle : Level) : PairView :=
  (((p.modChannel c fun ch => { ch with safe := safe }).pairView (pairOf c)).soloBatch p.now (sideOf c)
    { level := idle, kind := .nonScheduled .idle }).view

theorem channel_levelsSet (idle : Level) (c' : Fin 32) : (p.levelsSet c safe (.level idle)).channel c' =
    if pairOf c' = pairOf c then (p.idleAnswer c safe idle).get (sideOf c') else p.channel c' := by
  rw [channel_of_pairView]
  refine (congrArg (fun v => PairView.get v (sideOf c')) (pairView_requestOne ..)).trans ?_
  split
  · rfl
  · rename_i hk
    rw [← channel_of_pairView, channel_modChannel, if_neg fun h => hk (congrArg pairOf h)]

theorem pair_levelsSet (idle : Level) : (p.levelsSet c safe (.level idle)).pair (pairOf c) = (p.idleAnswer c safe idle).pair :=
  (congrArg PairView.pair (pairView_requestOne ..)).trans (congrArg PairView.pair (if_pos rfl))

end

/-- Whether the idle level is kept as the channel's waiting request (R45). -/
def IdleWaits (p : Part) (c : Fin 32) (idle : Level) : Prop :=
  (p.pair (pairOf c)).enabled = true ∧ idle = (p.pair (pairOf c)).polarity.activeLevel ∧ (p.channel c).level ≠ idle ∧
    p.clock.time < (p.pair (pairOf c)).deadTimeEnd

theorem IdleWaits.answer {idle : Level} (h : p.IdleWaits c idle) (safe : Level) :
    (p.idleAnswer c safe idle).get (sideOf c) =
        { p.channel c with safe := safe, waiting := some { level := idle, kind := .idle } } ∧
      (p.idleAnswer c safe idle).pair = p.pair (pairOf c) := by
  obtain ⟨he, hl, hne, ht⟩ := h
  have hown := p.pairView_safeSet c safe (sideOf c)
  rw [if_pos rfl] at hown
  have hw := PairView.soloBatch_waits (v := (p.modChannel c fun ch => { ch with safe := safe }).pairView (pairOf c))
    (own := sideOf c) (t := p.now) he .idle hl (by rw [hown]; exact hne) ht
  rw [idleAnswer, hw, PairView.get_set, if_pos rfl, hown, PairView.set_pair]
  exact ⟨rfl, rfl⟩

theorem answer_of_not_idleWaits {idle : Level} (h : ¬p.IdleWaits c idle)
    (hpartner : (p.pair (pairOf c)).isActive (p.channel (partnerOf c)).level = false ∨
      (p.pair (pairOf c)).isActive idle = false) (safe : Level) :
    (p.idleAnswer c safe idle).get (sideOf c) = { p.channel c with safe := safe, level := idle, waiting := none } := by
  have hown := p.pairView_safeSet c safe (sideOf c)
  rw [if_pos rfl] at hown
  have hother := p.pairView_safeSet c safe (sideOf c).other
  rw [if_neg (PairView.other_ne _)] at hother
  rw [idleAnswer, PairView.get_soloBatch_applied .idle ?_ ?_, hown]
  · rw [hother]
    exact hpartner
  · rw [hown]
    exact h

theorem levelsSet_rest (p : Part) (c : Fin 32) (safe : Level) (idle : IdleLevel) :
    (p.levelsSet c safe idle).timelines = p.timelines ∧ (p.levelsSet c safe idle).table = p.table ∧
      (p.levelsSet c safe idle).clock = p.clock ∧ (p.levelsSet c safe idle).inputs = p.inputs ∧
      (p.levelsSet c safe idle).command = p.command ∧ (p.levelsSet c safe idle).engine = p.engine := by
  cases idle with
  | keep => exact ⟨rfl, rfl, rfl, rfl, rfl, rfl⟩
  | level l =>
    exact ⟨requestOne_timelines .., requestOne_table .., requestOne_clock .., requestOne_inputs .., requestOne_command ..,
      requestOne_engine ..⟩

/-- The last item of the write list after a completion of a part whose engine is RUNNING. -/
theorem getLast_completeWith (hr : p.engine.state = .running) (hd : Header) (aux v : Nat) :
    (p.completeWith q hd aux v).posting.writeList.getLast? = some (.completion (p.queue q).cq
      { queue := q, id := hd.id, status := .ok, aux := aux, drops := 0, value := v }) := by
  rw [completeWith, handCompletion_writeList (isPosting_running hr), List.getLast?_concat]

end Part

/-- Settles O36: a refusal by the table; the levels by the guard's answer to the idle level. -/
theorem configureChannelSetsTheLevels : Obligations.ConfigureChannelSetsTheLevels := by
  intro h b s q hr ha T c pair table
  have hauth := (congrArg (fun a => a.getLsbD 0) (Part.authority_taken s.part q)).trans ha
  have hrun : T.engine.state = .running := Part.ready_running hr
  have hengine : (T.configureChannel q h b).engine.state = .running := (Part.kept_configureChannel ..).state.trans hrun
  have ht : takes (.configureChannel h b) s (T.configureChannel q h b) :=
    ready_takes (cmd := .configureChannel b) rfl hr (Part.process_authorised (cls := 0) rfl hauth h)
      ((Part.ready_calm hr).configureChannel (Part.ready_owes hr) h b).fault hengine
  rw [Part.configureChannel_eq] at ht
  refine ⟨fun row hrow => ?_, fun hnone => ?_⟩
  · rw [Part.answered, hrow] at ht
    exact ht
  · rw [Part.answered, hnone] at ht
    refine ⟨fun hkeep safe hsafe => ?_, fun safe idle hsafe hidle => ?_⟩
    · rw [hsafe, hkeep] at ht
      exact ht
    · intro waits
      rw [hsafe, IdleLevel.ofCode_level hidle] at ht
      obtain ⟨htimelines, htable, hclock, hinputs, hcommand, hengine⟩ := T.levelsSet_rest c safe (.level idle)
      have hkeep (P : Part) (v : Nat) (c' : Fin 32) : (P.completeWith q h 0 v).channel c' = P.channel c' :=
        Part.channel_of_output (Part.completeWith_output ..) c'
      have hlast (v : Nat) : ((T.levelsSet c safe (.level idle)).completeWith q h 0 v).posting.writeList.getLast? =
          some (.completion (T.queue q).cq { queue := q, id := h.id, status := .ok, aux := 0, drops := 0, value := v }) := by
        rw [Part.getLast_completeWith ((congrArg Engine.state hengine).trans hrun), Part.queue_of_command hcommand]
      have hpartner := Part.partner_inactive_of_channelTable (firstRow_none hnone) hidle
      have hown : (T.levelsSet c safe (.level idle)).channel c = (T.idleAnswer c safe idle).get (sideOf c) := by
        rw [Part.channel_levelsSet, if_pos rfl]
      refine ⟨_, ht, fun hw => ?_, fun hw => ?_, fun c' hc hp => ?_, ?_⟩
      · obtain ⟨hchannel, hpair⟩ := Part.IdleWaits.answer (p := T) (c := c) hw safe
        have htime : (T.levelsSet c safe (.level idle)).idleTime c (.level idle) = pair.deadTimeEnd := by
          rw [Part.idleTime, hown, hchannel, Part.pair_levelsSet, hpair]
          rfl
        exact ⟨(hkeep _ _ c).trans (hown.trans hchannel), (hlast _).trans (by rw [← htime]; rfl)⟩
      · have hchannel := Part.answer_of_not_idleWaits (p := T) (c := c) hw hpartner safe
        have htime : (T.levelsSet c safe (.level idle)).idleTime c (.level idle) = T.clock.time := by
          rw [Part.idleTime, hown, hchannel]
          exact congrArg Clock.time hclock
        exact ⟨(hkeep _ _ c).trans (hown.trans hchannel), (hlast _).trans (by rw [← htime]; rfl)⟩
      · refine (hkeep _ _ c').trans ((Part.channel_levelsSet ..).trans (if_neg fun hk => ?_))
        exact (eq_or_eq_partnerOf hk).elim hc hp
      · exact ⟨(Part.completeWith_timelines ..).trans htimelines, (Part.completeWith_table ..).trans htable,
          (Part.completeWith_clock ..).trans hclock, (Part.completeWith_inputs ..).trans hinputs,
          (Part.completeWith_command ..).trans hcommand, (Part.completeWith_engine ..).trans hengine⟩

end Sys2Proof.Machine
end

section
/-!
A dead-time expiry (R40), and what an applied DOMAIN SAFE request makes of its domain (R42, R76).
-/

namespace Sys2Proof.Machine

/-! ### The guard at a dead-time expiry -/

/-- A channel after a dead-time expiry: its waiting request is applied if the partner is inactive (R40). -/
def Channel.expired (pair : Pair) (own partner : Channel) : Channel :=
  match own.waiting with
  | some w => if pair.isActive partner.level then own else { own with level := w.level, waiting := none }
  | none => own

namespace PairView

variable {v : PairView}

theorem applyWaiting_some {side : Side} {w : Waiting} (h : (v.get side).waiting = some w) :
    v.applyWaiting side = ((v.apply side w.level).wait side none, (RequestKind.nonScheduled w.kind).report side) := by
  rw [applyWaiting, h]

theorem get_expireSide_self (v : PairView) (side : Side) :
    (v.expireSide side).1.get side = Channel.expired v.pair (v.get side) (v.get side.other) := by
  unfold expireSide Channel.expired
  cases hw : (v.get side).waiting with
  | none => rw [applyWaiting_none hw, ite_self]
  | some w =>
    rw [applyWaiting_some hw]
    dsimp only
    split
    · rfl
    · rw [get_wait, if_pos rfl, get_apply, if_pos rfl]

theorem get_expireSide_other (v : PairView) (side : Side) : (v.expireSide side).1.get side.other = v.get side.other := by
  unfold expireSide
  split
  · rfl
  · exact get_applyWaiting_other ..

theorem pair_expireSide (v : PairView) (side : Side) : (v.expireSide side).1.pair = v.pair := by
  unfold expireSide
  split
  · rfl
  · exact pair_applyWaiting ..

/-- R42: a DOMAIN SAFE request that waits no longer has been applied, and is reported. -/
theorem report_expireSide {side : Side} {w : Waiting} {d : Fin 8} {entry : Option Nat} (hw : (v.get side).waiting = some w)
    (hkind : w.kind = .domainSafe d entry) (hgone : ((v.expireSide side).1.get side).waiting = none) :
    { side := side, domain := d, entry := entry } ∈ (v.expireSide side).2 := by
  unfold expireSide at hgone ⊢
  split
  · rename_i ha
    rw [if_pos ha, hw] at hgone
    cases hgone
  · rw [applyWaiting_some hw, hkind]
    exact List.mem_singleton_self _

theorem get_expire_lower (v : PairView) : v.expire.1.get .lower = Channel.expired v.pair v.lower v.upper :=
  (get_expireSide_other _ .upper).trans (get_expireSide_self v .lower)

theorem get_expire_upper (v : PairView) :
    v.expire.1.get .upper = Channel.expired v.pair v.upper (Channel.expired v.pair v.lower v.upper) := by
  have hupper : (v.expireSide .lower).1.get .upper = v.upper := get_expireSide_other v .lower
  have hlower : (v.expireSide .lower).1.get .lower = Channel.expired v.pair v.lower v.upper := get_expireSide_self v .lower
  have hself := get_expireSide_self (v.expireSide .lower).1 .upper
  rw [show Side.upper.other = .lower from rfl, hupper, hlower, pair_expireSide] at hself
  exact hself

theorem report_expire {side : Side} {w : Waiting} {d : Fin 8} {entry : Option Nat} (hw : (v.get side).waiting = some w)
    (hkind : w.kind = .domainSafe d entry) (hgone : (v.expire.1.get side).waiting = none) :
    { side := side, domain := d, entry := entry } ∈ v.expire.2 := by
  cases side with
  | lower =>
    refine List.mem_append_left _ (report_expireSide hw hkind ?_)
    rwa [get_expire_lower, ← show _ = Channel.expired v.pair v.lower v.upper from get_expireSide_self v .lower] at hgone
  | upper =>
    have hupper : (v.expireSide .lower).1.get .upper = v.upper := get_expireSide_other v .lower
    have hw' : ((v.expireSide .lower).1.get .upper).waiting = some w := by
      rw [hupper]
      exact hw
    exact List.mem_append_right _ (report_expireSide hw' hkind hgone)

end PairView

/-! ### The reports in the domain records -/

/-- The progress part of a channel, as an entry or as an immediate member, is DONE (R76). -/
def Domain.PartDone (x : Domain) (c : Fin 32) (entry : Option Nat) : Prop :=
  ∀ y ∈ x.progress, y.channel = c → y.entry = entry → y.state = .done

theorem Domain.partDone_markDone (x : Domain) (c : Fin 32) (entry : Option Nat) : (x.markDone c entry).PartDone c entry := by
  intro y hy hc he
  obtain ⟨z, -, rfl⟩ := List.mem_map.1 hy
  split
  · rfl
  · rename_i hz
    rw [if_neg hz] at hc he
    exact absurd ⟨hc, he⟩ hz

theorem Domain.PartDone.markDone {x : Domain} {c : Fin 32} {entry : Option Nat} (h : x.PartDone c entry) (c' : Fin 32)
    (entry' : Option Nat) : (x.markDone c' entry').PartDone c entry := by
  intro y hy hc he
  obtain ⟨z, hz, rfl⟩ := List.mem_map.1 hy
  split
  · rfl
  · rename_i hne
    rw [if_neg hne] at hc he
    exact h z hz hc he

namespace Part

variable {p : Part} {d : Fin 8}

/-- R42: the part of a reported request is DONE. -/
theorem partDone_noteReports {k : Fin 16} {l : List SafeReport} {r : SafeReport} (hr : r ∈ l) (p : Part) :
    ((p.noteReports k l).domain r.domain).PartDone (channelOf k r.side) r.entry := by
  unfold noteReports
  refine foldl_reaches (P := fun _ => True) (Q := fun p => (p.domain r.domain).PartDone (channelOf k r.side) r.entry) _ r
    (fun _ _ _ => trivial) (fun p b _ h => ?_) l trivial (.inr hr)
  rw [domain_modDomain]
  split
  · rename_i hd
    rcases h with h | rfl
    · rw [hd] at h
      exact h.markDone _ _
    · exact Domain.partDone_markDone _ _ _
  · rename_i hd
    exact h.resolve_right fun e => hd (by rw [e])

/-- Noting a report changes the progress of its domain alone. -/
theorem state_noteReports (p : Part) (k : Fin 16) (l : List SafeReport) (d : Fin 8) :
    ((p.noteReports k l).domain d).state = (p.domain d).state := by
  refine foldl_keeps (fun p : Part => (p.domain d).state) _ (fun p r => ?_) _ _
  exact state_modDomain p d r.domain fun _ => rfl

theorem domain_checkSafe_eq (p : Part) (d e : Fin 8) : (p.checkSafe d).domain e =
    if e = d ∧ (p.domain d).state = .tripping ∧ (p.domain d).allDone = true
    then { p.domain d with state := .tripped } else p.domain e := by
  unfold checkSafe
  dsimp only
  by_cases h : (p.domain d).state = .tripping ∧ (p.domain d).allDone = true
  · rw [if_pos h, domain_notify, domain_modDomain]
    exact if_congr (and_iff_left h).symm rfl rfl
  · rw [if_neg h, if_neg fun hc => h hc.2]

/-- Looking for the last part changes no progress part. -/
theorem progress_checkReported (p : Part) (l : List SafeReport) (d : Fin 8) :
    ((p.checkReported l).domain d).progress = (p.domain d).progress := by
  unfold checkReported
  refine foldl_preserves (P := fun p' => (p'.domain d).progress = (p.domain d).progress) _ _ (fun p' r _ h => ?_) rfl
  rw [domain_checkSafe_eq]
  split
  · rename_i hd
    rw [hd.1] at h ⊢
    exact h
  · exact h

/-- R76: a reported domain that is TRIPPING with every part DONE enters TRIPPED. -/
theorem tripped_checkReported {l : List SafeReport} {r : SafeReport} (hr : r ∈ l) (hs : (p.domain r.domain).state = .tripping)
    (hdone : (p.domain r.domain).allDone = true) : ((p.checkReported l).domain r.domain).state = .tripped := by
  unfold checkReported
  refine foldl_reaches
    (P := fun p' => p'.domain r.domain = p.domain r.domain ∨ (p'.domain r.domain).state = .tripped)
    (Q := fun p' => (p'.domain r.domain).state = .tripped) _ r (fun p' b h => ?_) (fun p' b hP h => ?_) l (.inl rfl) (.inr hr)
  · rw [domain_checkSafe_eq]
    split
    · exact .inr rfl
    · exact h
  · rw [domain_checkSafe_eq]
    split
    · rfl
    · rename_i hc
      rcases h with h | rfl
      · exact h
      · refine hP.resolve_left fun h => hc ⟨rfl, ?_⟩
        rw [h]
        exact ⟨hs, hdone⟩

/-! ### The event -/

/-- The part after the waiting requests of pair k are applied, reported and looked at (R40, R42, R76). -/
def deadTimeExpired (p : Part) (k : Fin 16) : Part :=
  ((p.setPairView k (p.pairView k).expire.1).noteReports k (p.pairView k).expire.2).checkReported (p.pairView k).expire.2

theorem deadTimeExpiry_taken {k : Fin 16}
    (hw : (p.channel (channelOf k .lower)).waiting ≠ none ∨ (p.channel (channelOf k .upper)).waiting ≠ none)
    (ht : (p.pair k).deadTimeEnd ≤ p.clock.time) : p.deadTimeExpiry k = some (p.deadTimeExpired k) := by
  unfold deadTimeExpiry
  refine if_pos ?_
  rw [Bool.and_eq_true, Bool.or_eq_true, decide_eq_true_eq, Option.isSome_iff_ne_none, Option.isSome_iff_ne_none]
  exact ⟨hw, ht⟩

theorem output_deadTimeExpired (p : Part) (k : Fin 16) :
    (p.deadTimeExpired k).output = (p.setPairView k (p.pairView k).expire.1).output := by
  rw [deadTimeExpired, checkReported_output, noteReports_output]

theorem channel_deadTimeExpired (p : Part) (k : Fin 16) (c : Fin 32) : (p.deadTimeExpired k).channel c =
    if pairOf c = k then (p.pairView k).expire.1.get (sideOf c) else p.channel c :=
  (channel_of_output (output_deadTimeExpired p k) c).trans (channel_setPairView ..)

theorem pairs_deadTimeExpired (p : Part) (k : Fin 16) : (p.deadTimeExpired k).output.pairs = p.output.pairs := by
  rw [output_deadTimeExpired]
  refine Vector.ext fun i hi => (pair_setPairView p k ⟨i, hi⟩ _).trans ?_
  split
  · rename_i hk
    rw [PairView.expire_pair]
    exact congrArg p.pair hk.symm
  · rfl

end Part

namespace Part

variable {p : Part}

/-- R42, R76: a reported request's part is DONE, and a TRIPPING domain all of whose parts are DONE is TRIPPED. -/
theorem domain_deadTimeExpired {k : Fin 16} {r : SafeReport} (hr : r ∈ (p.pairView k).expire.2) :
    ((p.deadTimeExpired k).domain r.domain).PartDone (channelOf k r.side) r.entry ∧
      ((p.domain r.domain).state = .tripping → ((p.deadTimeExpired k).domain r.domain).allDone = true →
        ((p.deadTimeExpired k).domain r.domain).state = .tripped) := by
  have hprogress := progress_checkReported ((p.setPairView k (p.pairView k).expire.1).noteReports k (p.pairView k).expire.2)
    (p.pairView k).expire.2 r.domain
  refine ⟨?_, fun hs hdone => tripped_checkReported hr ((state_noteReports ..).trans hs) ?_⟩
  · rw [Domain.PartDone, deadTimeExpired, hprogress]
    exact partDone_noteReports hr _
  · rw [Domain.allDone, deadTimeExpired, hprogress] at hdone
    exact hdone

end Part

/-- Settles O35: the guard applies what waits beside an inactive partner, and each report reaches its domain. -/
theorem deadTimeExpiryAppliesTheWaiting : Obligations.DeadTimeExpiryAppliesTheWaiting := by
  intro s k haw ht lo up hwait expire
  obtain ⟨hr, hw⟩ := (awake_iff _).1 haw
  have hexpiry := Part.deadTimeExpiry_taken hwait ht
  have hcalm := (Part.calm_of_writesAllowed hw).moves (Part.moves_deadTimeExpiry k hexpiry)
  have hm := Part.moves_deadTimeExpiry (W := fun _ => True) k hexpiry
  have hview (own partner : Channel) : Channel.expired (s.part.pair k) own partner = expire own partner := by
    unfold Channel.expired expire
    cases own.waiting with
    | none => rfl
    | some w => simp only [Pair.isActive_iff]
  have hchannel (side : Side) : ((s.part.deadTimeExpired k).checkHalted).channel (channelOf k side) =
      (s.part.pairView k).expire.1.get side := by
    rw [Part.channel_checkHalted, Part.channel_deadTimeExpired, pairOf_channelOf, if_pos rfl, sideOf_channelOf]
  refine ⟨_, takes_of_calm rfl hr hexpiry hcalm, ?_, ?_, fun c hc => ?_, ?_, ?_, ?_⟩
  · rw [hchannel, PairView.get_expire_lower]
    exact hview lo up
  · rw [hchannel, PairView.get_expire_upper]
    exact (hview ..).trans (congrArg (expire up) (hview lo up))
  · rw [Part.channel_checkHalted, Part.channel_deadTimeExpired, if_neg hc]
  · rw [Part.checkHalted_output, Part.pairs_deadTimeExpired]
  · intro side d entry w hwaits hkind hgone
    rw [hchannel] at hgone
    have hreport := PairView.report_expire (v := s.part.pairView k) (by rw [Part.get_pairView]; exact hwaits) hkind hgone
    obtain ⟨hdone, htripped⟩ := Part.domain_deadTimeExpired hreport
    rw [Part.domain_checkHalted]
    exact ⟨hdone, fun hs hall => htripped hs ((Part.allDone_iff _).2 hall)⟩
  · exact ⟨by simp [Part.deadTimeExpired], by simp [Part.deadTimeExpired], (Part.checkHalted_clock ..).trans hm.clock,
      (Part.checkHalted_inputs ..).trans hm.inputs, (Part.checkHalted_command ..).trans hm.command⟩

end Sys2Proof.Machine
end

section
/-!
The tick (R105, R106), and the CONTENTION pulses that still wait before it (R41, R69; log 21).
-/

namespace Sys2Proof.Machine

/-! ### A pulse that waits -/

/-- What the end of a time value makes of a domain record, but for its drive: a CONTENTION pulse that waits reaches the domain. -/
def Domain.afterWait (x : Domain) (now : Nat) : Domain :=
  if x.contentionWaits then { x.afterOffer .contention now with contentionWaits := false } else x

namespace Domain

variable {a b : Domain}

theorem Onward.contentionWaits (h : a.Onward b) : b.contentionWaits = a.contentionWaits := by rw [h.rest]

theorem Onward.noWait (h : a.Onward b) :
    ({ a with contentionWaits := false } : Domain).Onward { b with contentionWaits := false } := by
  refine ⟨?_, h.state⟩
  conv_lhs => rw [h.rest]

/-- The end of a time value finds the same in a domain that has gone on. -/
theorem Onward.afterWait (h : a.Onward b) (now : Nat) : (a.afterWait now).Onward (b.afterWait now) := by
  unfold Domain.afterWait
  rw [h.contentionWaits]
  split
  · exact (h.afterOffer .contention now).noWait
  · exact h

theorem contentionWaits_afterWait (x : Domain) (now : Nat) : (x.afterWait now).contentionWaits = false := by
  unfold Domain.afterWait
  split
  · rfl
  · exact Bool.eq_false_of_not_eq_true ‹_›

theorem afterWait_of_none {x : Domain} (h : x.contentionWaits = false) (now : Nat) : x.afterWait now = x :=
  if_neg (by simp [h])

theorem afterWait_of_unselected {x : Domain} (h : x.selects .contention = false) (now : Nat) :
    x.afterWait now = { x with contentionWaits := false } := by
  unfold Domain.afterWait
  split
  · rw [Domain.afterOffer, if_neg (by simp [h])]
  · cases x
    rename_i hw
    cases Bool.eq_false_of_not_eq_true hw
    rfl

/-- A pulse that waits trips an armed domain that selects CONTENTION, with CONTENTION as the only cause. -/
theorem afterWait_of_armed {x : Domain} (hw : x.contentionWaits = true) (hs : x.selects .contention = true)
    (ha : x.state = .armed) (now : Nat) : x.afterWait now = x.trip .contention now := by
  rw [Domain.afterWait, if_pos hw, Domain.afterOffer, if_pos hs, Domain.offered_armed ha, hw, hs]
  rfl

end Domain

namespace Part

variable {p : Part} {d : Fin 8}

theorem onward_endWait (p : Part) (d e : Fin 8) :
    (if e = d then (p.domain d).afterWait p.now else p.domain e).Onward ((p.endWait d).domain e) := by
  have ho := p.onward_offer .contention d e
  unfold endWait Domain.afterWait
  by_cases hw : (p.domain d).contentionWaits = true
  · rw [if_pos hw, if_pos hw, domain_modDomain]
    by_cases he : e = d
    · subst he
      rw [if_pos rfl] at ho
      rw [if_pos rfl, if_pos rfl]
      exact ho.noWait
    · rw [if_neg he] at ho
      rwa [if_neg he, if_neg he]
  · rw [if_neg hw, if_neg hw]
    by_cases he : e = d
    · rw [if_pos he, he]
      exact .refl _
    · rw [if_neg he]
      exact .refl _

theorem now_endWait (p : Part) (d : Fin 8) : (p.endWait d).now = p.now := congrArg Clock.time (endWait_clock p d)

/-- The pulses that wait reach their domains, each once, in whatever order. -/
theorem onward_endWait_foldl (l : List (Fin 8)) (p : Part) (d : Fin 8) :
    (if d ∈ l then (p.domain d).afterWait p.now else p.domain d).Onward ((l.foldl endWait p).domain d) := by
  induction l generalizing p with
  | nil => exact .refl _
  | cons e l ih =>
    have hfirst := onward_endWait p e d
    have hrest := ih (p.endWait e)
    rw [now_endWait] at hrest
    rw [List.foldl_cons]
    by_cases he : d = e
    · subst he
      rw [if_pos rfl] at hfirst
      rw [if_pos List.mem_cons_self]
      refine Domain.Onward.trans ?_ hrest
      split
      · have hagain := hfirst.afterWait p.now
        rwa [Domain.afterWait_of_none (Domain.contentionWaits_afterWait ..)] at hagain
      · exact hfirst
    · rw [if_neg he] at hfirst
      have hmem : d ∈ e :: l ↔ d ∈ l := by simp [he]
      rw [if_congr hmem rfl rfl]
      refine Domain.Onward.trans ?_ hrest
      split
      · exact hfirst.afterWait p.now
      · exact hfirst

/-- R41, R69: at the end of a time value each pulse that waits reaches its domain. -/
theorem onward_endWaits (p : Part) (d : Fin 8) : ((p.domain d).afterWait p.now).Onward (p.endWaits.domain d) := by
  have h := onward_endWait_foldl (inOfferOrder p.freeIndex p.awaiting) { p with freeIndex := p.freeIndex + 1 } d
  unfold endWaits
  by_cases hm : d ∈ p.awaiting
  · rw [if_neg (by simpa using List.ne_nil_of_mem hm)]
    rwa [if_pos ((mem_inOfferOrder ..).2 hm)] at h
  · rw [Domain.afterWait_of_none (by simpa [mem_awaiting] using hm)]
    split
    · exact .refl _
    · rwa [if_neg fun hc => hm ((mem_inOfferOrder ..).1 hc)] at h

/-! ### The tick -/

theorem countTo_maxTime (n : Nat) : countTo maxTime n = min (n + 1) (max n (2 ^ 64 - 1)) := by
  unfold countTo maxTime
  split <;> omega

theorem countTo_of_lt {limit n : Nat} (h : n < limit) : countTo limit n = n + 1 := if_pos h

theorem domain_tick (p : Part) (d : Fin 8) : p.tick.domain d = p.domain d := rfl

theorem input_tick (p : Part) (n : Fin 16) : p.tick.input n = (p.input n).tick := by simp [tick, input]

theorem cq_tick (p : Part) (n : Fin 4) : p.tick.cq n = (p.cq n).tick := by simp [tick, cq]

/-- A tick leaves Engine Control as little to do as it found. -/
theorem settled_tick (p : Part) : p.tick.settled = p.settled := by
  have hposting : (p.monitor.posting.map Access.tick).isNone = p.monitor.posting.isNone := Option.isNone_map
  simp only [settled, haltComplete, drained, tick, Monitor.tick, hposting]
  rfl

end Part

theorem Part.fault_checkHalted (p : Part) : p.checkHalted.posting.fault = p.posting.fault := by
  unfold Part.checkHalted
  split <;> rfl

theorem exec_timebaseTick (s : State) : exec .timebaseTick s = event (fun p => some p.timebaseTick) s := rfl

/-- R105, R108, R113: what a tick makes of the clock. -/
theorem Clock.tick_eq (c : Clock) : c.tick = { c with
    time := min (c.time + 1) (max c.time (2 ^ 64 - 1))
    detectorCount := if c.source = .backup ∧ c.detectorCount < 32 then c.detectorCount + 1 else c.detectorCount
    supervisor := { c.supervisor with window := c.supervisor.window.map fun w => { w with
      ticks := if w.isOpen = true ∧ w.ticks < 2 ^ 32 - 1 then w.ticks + 1 else w.ticks
      refTimer := if w.refTimer < c.supervisor.referenceTimeout then w.refTimer + 1 else w.refTimer } } } := by
  have hcount (P : Prop) [Decidable P] (limit n : Nat) :
      (if P then countTo limit n else n) = if P ∧ n < limit then n + 1 else n := by
    by_cases hp : P <;> simp [hp, countTo]
  rw [Clock.tick, Supervisor.tick, Part.countTo_maxTime]
  simp only [hcount]
  rfl

/-- R93: what a tick makes of a fault input. -/
theorem FaultInput.tick_eq (i : FaultInput) : i.tick = { i with
    spacing := if i.enabled = true ∧ i.spacing < i.interval then i.spacing + 1 else i.spacing } := by
  unfold FaultInput.tick countTo
  by_cases he : i.enabled = true
  · simp [he]
  · rw [if_neg he, if_neg fun h => he h.1]

/-- With no pulse waiting and nothing left for Engine Control, a tick is a tick. -/
theorem takes_tick {s : State} (hr : s.part.resetAsserted = false) (hs : s.part.settled = true)
    (h : ∀ d, (s.part.domain d).contentionWaits = false) : takes .timebaseTick s s.part.tick := by
  refine takes_of_settled (f := fun p => some p.timebaseTick) rfl hr ?_ ((Part.settled_tick _).trans hs)
  rw [Part.timebaseTick, Part.endWaits_none h, Part.settle_settled hs]

/-- Where the windows allow the next write, the pulses that wait, the tick and the end of a HALT are all that a tick does. -/
theorem takes_timebaseTick {s : State} (h : s.part.awake = true) :
    takes .timebaseTick s s.part.endWaits.checkHalted.tick.checkHalted := by
  obtain ⟨hr, hw⟩ := (awake_iff _).1 h
  have hfault := ((Part.calm_of_writesAllowed hw).moves (Part.moves_endWaits s.part)).fault
  have htick : s.part.endWaits.checkHalted.tick.posting.fault = none := (Part.fault_checkHalted _).trans hfault
  unfold takes
  rw [exec_timebaseTick, event_some (p := s.part.timebaseTick) hr rfl, Part.timebaseTick, Part.settle_eq_checkHalted hfault,
    Part.settle_eq_checkHalted htick]

/-- Settles O49: without a waiting pulse the tick is all; with one, the pulse reaches its domain before the tick. -/
theorem tickCountsEveryInterval : Obligations.TickCountsEveryInterval := by
  refine ⟨fun s hr hs hnone => ⟨_, takes_tick hr hs hnone, ?_, fun n => ?_, fun n => ?_, ?_, rfl⟩, fun s d haw ht hw ha => ?_⟩
  · rw [show s.part.tick.clock = s.part.clock.tick from rfl, Clock.tick_eq]
  · rw [Part.input_tick, FaultInput.tick_eq]
  · exact Part.cq_tick ..
  · rfl
  · have hon := s.part.onward_endWaits d
    have hdomain : (s.part.endWaits.checkHalted.tick.checkHalted).domain d = s.part.endWaits.domain d := by
      rw [Part.domain_checkHalted, Part.domain_tick, Part.domain_checkHalted]
    have hclock : (s.part.endWaits.checkHalted.tick.checkHalted).clock = s.part.clock.tick := by
      rw [Part.checkHalted_clock, show s.part.endWaits.checkHalted.tick.clock = s.part.endWaits.checkHalted.clock.tick from rfl,
        Part.checkHalted_clock, Part.endWaits_clock]
    refine ⟨_, takes_timebaseTick haw, ?_⟩
    simp only [hdomain]
    refine ⟨hon.contentionWaits.trans (Domain.contentionWaits_afterWait ..), fun hs => ?_, fun hs => ?_, ?_⟩
    · rw [Domain.afterWait_of_unselected hs] at hon
      exact ⟨hon.state.elim (·.trans ha) fun h => absurd (ha.symm.trans h.1) (by simp), hon.causes, hon.tripTime⟩
    · rw [Domain.afterWait_of_armed hw hs ha] at hon
      exact ⟨hon.state.imp id And.right, hon.causes, hon.tripTime⟩
    · rw [hclock]
      exact Part.countTo_of_lt ht

end Sys2Proof.Machine
end
